-- ==== Sys2Proof/Word.lean ====
section
/-! DEFINITION. The word types of both lines: bytes and 16-bit quantities (spec/00_scope.md, 1.7). -/

namespace Sys2Proof

/-- A byte of either line. -/
abbrev Byte := BitVec 8

/-- A 16-bit quantity: a point value, a frame number, a ticket, a check. -/
abbrev Word := BitVec 16

end Sys2Proof
end

