-- ==== Sys2Proof/Syntax.lean ====
section
/-! DEFINITION. The commands: one constructor for each row of spec/opcode_table.json.
A request command carries its TAG and its payload fields as the bytes the host sends (10.3), so that values
outside a field's range can be written; an event command carries what the outside decides in it. -/

namespace Sys2Proof

/-- The entry parameter block of 9 bytes (10.3). -/
structure ParamBlock where
  kind        : Byte
  drop        : Byte
  first       : Byte
  inCount     : Byte
  outCount    : Byte
  retries     : Byte
  routeFlag   : Byte
  routeSet    : Byte
  routeOffset : Byte
  deriving DecidableEq, Repr

/-- A level of the drop-bus line: high is idle (R49). -/
inductive Level where
  | high | low
  deriving DecidableEq, Repr

/-- A command of the part (spec/opcode_table.json, spec/95_what_each_step_holds.md).
`line` is what the drop bus carries while DBDE is released, one level for each tick, a quarter of a bit-time at the
rate of what is on the bus, from where the last bus command, POWER_ON or RESET_ALL left off (log 6, log 7): what the
receiver of an answer, the jam record and the wake monitor take their input from (R50). Where it ends before the moment
the command names, the line is idle. -/
inductive Instr where
  /-- POWER_ON (R179): the straps LR1 and LR0 as sampled, true for high. -/
  | powerOn (lr1 lr0 : Bool)
  /-- LINK_FRAME_COMPLETE (R155): the second CHECK byte. -/
  | linkFrameComplete (byte : Byte)
  /-- LINK_FRAME_ABANDON (R154): the offending character. -/
  | linkFrameAbandon (byte : Byte) (framing : Bool)
  /-- LINK_IDLE_GAP_EXPIRY (R154). -/
  | linkIdleGapExpiry
  /-- LINK_BREAK (R154). -/
  | linkBreak
  /-- OPEN (R171). -/
  | openSession (tag window resendTime silenceTime action : Byte)
  /-- CLOSE (R172). -/
  | closeSession (tag : Byte)
  /-- IDENTIFY (R174). -/
  | identify (tag : Byte)
  /-- STATUS (R175). -/
  | status (tag : Byte)
  /-- ACK-REPORTS (R166, R167). -/
  | ackReports (tag seq : Byte)
  /-- RESET of any scope but ALL (R176, R177): ENGINE is 0; with the line up to it, for the jam record. -/
  | resetEngine (tag scope : Byte) (line : List Level)
  /-- RESET of scope ALL (R178). -/
  | resetAll (tag : Byte)
  /-- ENTRY-ADD (R9). -/
  | entryAdd (tag : Byte) (params : ParamBlock)
  /-- ENTRY-SET (R10). -/
  | entrySet (tag index gen : Byte) (params : ParamBlock)
  /-- ENTRY-LOAD (R11). -/
  | entryLoad (tag index gen offset : Byte) (values : List Word)
  /-- ENTRY-READ (R12). -/
  | entryRead (tag index : Byte)
  /-- ENTRY-FREE (R13). -/
  | entryFree (tag index gen : Byte)
  /-- CHAIN-INSERT (R14). -/
  | chainInsert (tag slot position index gen : Byte)
  /-- CHAIN-REMOVE (R15). -/
  | chainRemove (tag slot index : Byte)
  /-- CHAIN-READ (R16). -/
  | chainRead (tag slot : Byte)
  /-- SCHEDULE-LENGTH (R17). -/
  | scheduleLength (tag length : Byte)
  /-- BUS-CONFIG (R24). -/
  | busConfig (tag rate period guard settling : Byte)
  /-- START (R27), with the line before the first boundary. -/
  | start (tag : Byte) (line : List Level)
  /-- HALT (R28, R29). -/
  | halt (tag : Byte)
  /-- QUIET (R140, R142, R143). -/
  | quiet (tag : Byte)
  /-- WAKE (R146). -/
  | wake (tag : Byte)
  /-- SUBMIT (R94); in the idle tail of the ad hoc stage `line` is the bus time passed in it (R39). -/
  | submit (tag kind drop first inCount outCount retries force : Byte) (values : List Word) (line : List Level)
  /-- CANCEL (R102), with `line` as SUBMIT. -/
  | cancel (tag : Byte) (ticket : Word) (line : List Level)
  /-- DROP-ATTACH (R87). -/
  | dropAttach (tag drop threshold interval : Byte)
  /-- DROP-DETACH (R88). -/
  | dropDetach (tag drop : Byte)
  /-- DROP-READ (R89). -/
  | dropRead (tag drop : Byte)
  /-- DROP-CLEAR-SERVICE (R90). -/
  | dropClearService (tag drop : Byte)
  /-- SET-CONFIG (R114). -/
  | setConfig (tag set mode width : Byte)
  /-- SET-READ (R116). -/
  | setRead (tag set : Byte)
  /-- EVENT-MASK (R135). -/
  | eventMask (tag dropMask serviceMask frameMask : Byte)
  /-- FRAME_START (R32). -/
  | frameStart (line : List Level)
  /-- QUIET_BOUNDARY (R141). -/
  | quietBoundary
  /-- SETTLING_BOUNDARY (R148). -/
  | settlingBoundary (line : List Level)
  /-- WAKE_PULSE (R145): what the wake monitor sees. -/
  | wakePulse (line : List Level)
  /-- BROADCAST_GAP_END (R54, R51): the line through the closing gap. -/
  | broadcastGapEnd (line : List Level)
  /-- REQUEST_FRAME_END (R58). -/
  | requestFrameEnd
  /-- ANSWER_DEADLINE (R58): the line from the end of the request, in which no start bit begins in time. -/
  | answerDeadline (line : List Level)
  /-- ANSWER_END (R58): the line that goes on from the answer's start bit. -/
  | answerEnd (line : List Level)
  /-- ATTEMPT_END (R62): the line through the closing gap; and whether something else is taken between the end of an
  item and the judgement of the next, which a further ATTEMPT_END then makes (R28; log 17). -/
  | attemptEnd (line : List Level) (held : Bool)
  /-- TX_FRAME_START (R163). -/
  | txFrameStart
  /-- REPLY_SENT (R162). -/
  | replySent
  /-- REPORT_FRAME_SENT (R165). -/
  | reportFrameSent
  /-- RESEND_TIMEOUT (R168). -/
  | resendTimeout
  /-- SILENCE_TIMEOUT (R170). -/
  | silenceTimeout
  /-- ANSWER_START_BIT (R49, R58): the line from the end of the request until the start bit is recognised. -/
  | answerStartBit (line : List Level)
  /-- BROADCAST_FRAME_END (R54). -/
  | broadcastFrameEnd
  /-- LINK_CHARACTER_RECEIVED (R153). -/
  | linkCharacterReceived (byte : Byte) (framing : Bool)
  deriving DecidableEq, Repr

end Sys2Proof
end

