-- ==== Sys2Proof/Decode.lean ====
section
/-! DEFINITION. The commands that a word spells by the table's bits. No row of spec/opcode_table.json
gives bits (each row's "fields" is empty and none has "fixed"), so no word spells a command. -/

namespace Sys2Proof

/-- The command whose bits are `w`: none, since the table gives no row any bits. -/
def decodeTableWord (_nbits _w : Nat) : Option Instr := none

end Sys2Proof
end

