-- ==== Sys2Proof/Config.lean ====
section
/-! DEFINITION. What the part fixes: its capacities (IDENTIFY, R174), its bus timing (R23, R54, R58, R63)
and its default bus configuration (R23). The spec leaves no result value open, so no constant here is
opaque. -/

namespace Sys2Proof.Config

/-- Drop addresses 1..24 (R73). -/
abbrev dropCount : Nat := 24
/-- Poll entries 0..127 (R1). -/
abbrev entryCount : Nat := 128
/-- Frame-table slots 0..31 (R5). -/
abbrev slotCount : Nat := 32
/-- The most indices a chain holds (R5). -/
abbrev chainLimit : Nat := 32
/-- Result sets 0..15 (R107). -/
abbrev setCount : Nat := 16
/-- The most tickets outstanding (R94). -/
abbrev ticketLimit : Nat := 16
/-- Places of the report queue (R122). -/
abbrev reportPlaces : Nat := 32
/-- Places of the request buffer (R157). -/
abbrev requestPlaces : Nat := 4
/-- Places of the short-reply list (R157). -/
abbrev shortPlaces : Nat := 4
/-- Entries of reply memory (R162). -/
abbrev memoryPlaces : Nat := 8
/-- The most payload bytes of a link frame (R154). -/
abbrev payloadLimit : Nat := 240

/-- Ticks in a bit-time of the drop bus: the grain at which its levels are given (log 7). -/
abbrev ticks : Nat := 4
/-- A broadcast frame on the line, 6 bytes (R54). -/
abbrev broadcastTime : Nat := 60
/-- The closing gap of every transmission (R51). -/
abbrev gapTime : Nat := 8
/-- The time the jam record reaches back (R68). -/
abbrev jamTime : Nat := 8
/-- What a beacon and its gap cost (R23, R54). -/
abbrev beaconCost : Nat := 68
/-- The idle that ends an answer (R58). -/
abbrev idleEnd : Nat := 2
/-- The answer deadline (R58). -/
abbrev answerDeadline : Nat := 24
/-- The worst-case cost of a probe (R38, R53). -/
abbrev probeCost : Nat := 202
/-- The low that makes a wake pulse (R145). -/
abbrev wakeLow : Nat := 16

/-- Limit of the 16-bit saturating counts (00_scope.md, 1.7). -/
abbrev limit16 : Nat := 65535
/-- Limit of the 8-bit saturating counts (00_scope.md, 1.7; R129, R131, R132). -/
abbrev limit8 : Nat := 255

end Sys2Proof.Config
end

