-- ==== Sys2Proof/Machine/State.lean ====
section
/-! DEFINITION. The state of the part, block by block (spec/00_scope.md, 1.4), and the state at power-on. -/

namespace Sys2Proof.Machine

/-! ### Names the spec gives -/

/-- The 29 requests of the host link (10.2). -/
inductive Request where
  | open_ | close | identify | status | ackReports | reset
  | entryAdd | entrySet | entryLoad | entryRead | entryFree
  | chainInsert | chainRemove | chainRead | scheduleLength
  | busConfig | start | halt | quiet | wake | submit | cancel
  | dropAttach | dropDetach | dropRead | dropClearService
  | setConfig | setRead | eventMask
  deriving DecidableEq, Repr

/-- The blocks that own requests (R160). -/
inductive Owner where
  | lnk | scm | fen | drm | rst | rep
  deriving DecidableEq, Repr

/-- Reply statuses (10.2). -/
inductive Status where
  | ok | accepted | cancelled | inFlight | already
  | busy | duplicate | unknownRequest | badLength | noSession | alreadyOpen | badAck
  | wrongState | outOfRange | stale | conflict
  | noSpace | inUse | alreadyLinked | chainFull | notLinked | notFound | tooLarge | queueFull | aborted
  deriving DecidableEq, Repr

/-- Transaction kinds (R2). -/
inductive TransKind where
  | read | write | exchange
  deriving DecidableEq, Repr

/-- The retryable errors of an attempt (R59). -/
inductive AttemptError where
  | noAnswer | badCheck | wrongDrop | badLength
  deriving DecidableEq, Repr

/-- What an attempt gives the frame engine (R60, R62): an error, or a valid answer. -/
inductive AttemptResult where
  | error (e : AttemptError)
  | valid (fault service : Bool) (values : List Word)
  deriving DecidableEq, Repr

/-- An entry's last outcome (R4). -/
inductive LastOutcome where
  | never | ok | dropFault | failed (e : AttemptError) | skipped | notReady
  deriving DecidableEq, Repr

/-- The outcome a TICKET-DONE carries (R101). -/
inductive TicketOutcome where
  | ok | dropFault | failed | notReady | aborted
  deriving DecidableEq, Repr

/-- Engine states (R21). -/
inductive EngineState where
  | stopped | running | halting | quiet | waking
  deriving DecidableEq, Repr

/-- Causes of a change of engine state (R22). -/
inductive EngineCause where
  | host | jam | wakePulse | settled | reset | linkLoss
  deriving DecidableEq, Repr

/-- Drop-bus rates (R23). -/
inductive BusRate where
  | k250 | k500 | m1 | m2
  deriving DecidableEq, Repr

/-- Link rates, by the straps (R152). -/
inductive LinkRate where
  | b115200 | b230400 | b460800 | b921600
  deriving DecidableEq, Repr

/-- Drop states (R74). -/
inductive DropState where
  | off | seeking | online | failing | quarantined
  deriving DecidableEq, Repr

/-- Drop transition kinds (R74). -/
inductive Transition where
  | arrived | lost | readmitted | replaced
  deriving DecidableEq, Repr

/-- Result-set modes (R107). -/
inductive SetMode where
  | off | block | latest
  deriving DecidableEq, Repr

/-- A class mask (R127). -/
inductive Mask where
  | masked | unmasked
  deriving DecidableEq, Repr

/-- Session states, an OPEN session being marked closing after CLOSE (R170). -/
inductive SessionState where
  | closed | opened | closing
  deriving DecidableEq, Repr

/-- Causes of a session end (R170). -/
inductive EndCause where
  | none | close | silence
  deriving DecidableEq, Repr

/-- Link-loss actions (R170). -/
inductive LinkLoss where
  | continue_ | halt
  deriving DecidableEq, Repr

/-- Report path states (R164). -/
inductive PathState where
  | sending | stalled
  deriving DecidableEq, Repr

/-! ### SCM -/

/-- A route (R2, R8): a result set and a window offset. -/
structure Route where
  set    : Fin Config.setCount
  offset : Nat
  deriving DecidableEq, Repr

/-- What an entry and an ad hoc item have in common (R2, R92): one transaction. Drop address d is `d - 1`. -/
structure Transaction where
  kind     : TransKind
  drop     : Fin Config.dropCount
  first    : Nat
  inCount  : Nat
  outCount : Nat
  retries  : Nat
  deriving DecidableEq, Repr

/-- What an ALLOCATED entry holds (R1, R2, R4, R5). -/
structure EntryBody where
  trans     : Transaction
  route     : Option Route
  outputs   : List Word
  done      : Nat
  failed    : Nat
  skipped   : Nat
  notReady  : Nat
  last      : LastOutcome
  linkCount : Nat
  deriving DecidableEq, Repr

/-- A poll entry (R1): its generation, and its contents when ALLOCATED (none when FREE). -/
structure Entry where
  gen  : Byte
  body : Option EntryBody
  deriving DecidableEq, Repr

/-- SCM: the poll store, the frame table and the schedule length (R1, R5, R6). -/
structure Scm where
  entries  : Vector Entry Config.entryCount
  chains   : Vector (List (Fin Config.entryCount)) Config.slotCount
  schedLen : Nat
  deriving DecidableEq, Repr

/-! ### FEN -/

/-- The bus configuration (R23). -/
structure BusConfig where
  rate     : BusRate
  period   : Nat
  guard    : Nat
  settling : Nat
  deriving DecidableEq, Repr

/-- A pair of the frame plan (R18). -/
structure PlanPair where
  index : Fin Config.entryCount
  gen   : Byte
  deriving DecidableEq, Repr

/-- Where the walk of the frame in progress stands (R32, R35). -/
inductive Stage where
  /-- No frame is walked: not RUNNING, or a jammed frame. -/
  | idle
  /-- The beacon or its gap is on the line. -/
  | beacon
  | periodic
  /-- The periodic stage has ended and the probe stage is still to begin, the judgement being left due (log 17). -/
  | periodicEnded
  | probe
  | adHoc
  deriving DecidableEq, Repr

/-- What an item in progress was started from; an ad hoc item's mark says whether it still has its ticket (R92). -/
inductive ItemSource where
  | periodic (pair : PlanPair)
  | probe
  | adHoc (ticket : Word) (mark : Bool)
  deriving DecidableEq, Repr

/-- The item in progress (R37, R42, R99). -/
structure Item where
  source    : ItemSource
  retries   : Nat
  attempts  : Nat
  lastError : Option AttemptError
  deriving DecidableEq, Repr

/-- A queued ad hoc item (R92). -/
structure AdHoc where
  ticket  : Word
  trans   : Transaction
  outputs : List Word
  force   : Bool
  deriving DecidableEq, Repr

/-- FEN (ch. 2 introduction; ch. 5; ch. 8). -/
structure Fen where
  engine       : EngineState
  config       : BusConfig
  /-- Ticks since the last period boundary, none while stopped (R25, log 4). -/
  timer        : Option Nat
  frame        : Word
  plan         : List PlanPair
  planPos      : Nat
  slot         : Fin Config.slotCount
  stage        : Stage
  jamCount     : Nat
  skipCount    : Nat
  item         : Option Item
  queue        : List AdHoc
  ticket       : Word
  quietPending : Bool
  settling     : Nat
  watching     : Bool
  /-- Ticks the line has been low without a break (R145). -/
  lowMeasure   : Nat
  /-- START waits for a broadcast still on the line (R27). -/
  startPending : Bool
  /-- RESET ENGINE waits for its RESUME (R150). -/
  resetPending : Bool
  /-- The cause the end of HALTING will carry (R22, R31). -/
  haltCause    : EngineCause
  /-- An item has ended and the next is not yet judged (R28, R39). The model's own (log 17). -/
  judgeDue     : Bool
  deriving DecidableEq, Repr

/-! ### BTX -/

/-- Commands of an addressed request frame (R52). -/
inductive BusCommand where
  | read | write | exchange | probe
  deriving DecidableEq, Repr

/-- The capture (R65). -/
structure Capture where
  cmd      : BusCommand
  drop     : Fin Config.dropCount
  first    : Nat
  inCount  : Nat
  outCount : Nat
  outputs  : List Word
  deriving DecidableEq, Repr

/-- Broadcasts (R54). -/
inductive Broadcast where
  | beacon (settling : Bool) (number : Word)
  | quiet
  | resume
  deriving DecidableEq, Repr

/-- A broadcast handed over to BTX, with the rate of the configuration in force at that moment (R56). -/
structure Handed where
  what : Broadcast
  rate : BusRate
  deriving DecidableEq, Repr

/-- What a closing gap closes. -/
inductive GapOf where
  | broadcast (b : Handed)
  | attempt (r : AttemptResult)
  deriving DecidableEq, Repr

/-- Transactor states (R51). -/
inductive BtxState where
  | idle | request | wait | answer
  | broadcast (b : Handed)
  | gap (g : GapOf)
  deriving DecidableEq, Repr

/-- The receiver state of an answer (ch. 3 introduction, R58): its start, in ticks from the end of the request;
the bytes received; its end, in ticks from its start. -/
structure Receiver where
  startAt : Option Nat
  bytes   : List Byte
  endAt   : Option Nat
  deriving DecidableEq, Repr

/-- BTX (ch. 3 introduction). -/
structure Btx where
  state     : BtxState
  dbde      : Bool
  capture   : Option Capture
  rx        : Receiver
  /-- The line over the most recent 32 µs, 8 bit-times at the lowest rate, one bit for each eighth of a microsecond,
  the newest lowest, set where it was low and the part did not drive it (R68). -/
  jamRecord : BitVec 256
  /-- The line as the last bus command gave it beyond the moment it ended at, in ticks of the rate of what is on the
  bus; the next one's follows it. The model's own (log 6). -/
  heard     : List Level
  /-- Broadcasts handed over while an earlier one is still on the line (R51). -/
  waiting   : List Handed
  deriving DecidableEq, Repr

/-! ### DRM -/

/-- A drop's identity (R73). -/
structure Identity where
  kind   : Byte
  points : Nat
  deriving DecidableEq, Repr

/-- A drop record (R73). -/
structure DropRec where
  state     : DropState
  threshold : Nat
  interval  : Nat
  failures  : Nat
  due       : Nat
  identity  : Option Identity
  service   : Bool
  total     : Nat
  deriving DecidableEq, Repr

/-- The probe record, when not empty (R80). -/
structure ProbeRec where
  drop : Fin Config.dropCount
  live : Bool
  deriving DecidableEq, Repr

/-- DRM (R73, R79, R80). -/
structure Drm where
  drops  : Vector DropRec Config.dropCount
  cursor : Fin Config.dropCount
  probe  : Option ProbeRec
  deriving DecidableEq, Repr

/-! ### RST -/

/-- A sample (R108). -/
structure Sample where
  entry   : Fin Config.entryCount
  frame   : Word
  fault   : Bool
  service : Bool
  values  : List Word
  deriving DecidableEq, Repr

/-- A result set (R107). -/
structure SetRec where
  mode   : SetMode
  width  : Nat
  slots  : Vector (Option Sample) 4
  fill   : Nat
  newest : Fin 4
  latest : Nat
  block  : Word
  lost   : Nat
  deriving DecidableEq, Repr

/-- RST (R107). -/
structure Rst where
  sets : Vector SetRec Config.setCount
  deriving DecidableEq, Repr

/-! ### REP -/

/-- The contents of a TICKET-DONE (R101). -/
structure TicketDone where
  ticket    : Word
  outcome   : TicketOutcome
  lastError : Option AttemptError
  attempts  : Nat
  frame     : Word
  /-- FAULT and SERVICE of the valid answer that ended the item. -/
  flags     : Option (Bool × Bool)
  values    : List Word
  deriving DecidableEq, Repr

/-- The contents of a SET-BLOCK (R112). -/
structure SetBlock where
  set     : Fin Config.setCount
  block   : Word
  lost    : Nat
  width   : Nat
  samples : List Sample
  deriving DecidableEq, Repr

/-- A change of engine state (R22). -/
structure EngineChange where
  new   : EngineState
  left  : EngineState
  cause : EngineCause
  frame : Word
  deriving DecidableEq, Repr

/-- A drop's transition (R86). -/
structure DropChange where
  left    : DropState
  entered : DropState
  kind    : Transition
  deriving DecidableEq, Repr

/-- The contents of a FRAME-EVENT and of the FRAME latch (R45, R131). -/
structure FrameSummary where
  slot    : Fin Config.slotCount
  frame   : Word
  skipped : Nat
  jams    : Nat
  frames  : Nat
  deriving DecidableEq, Repr

/-- The six kinds of report (R121). -/
inductive Report where
  | ticketDone (r : TicketDone)
  | setBlock (r : SetBlock)
  | engineState (c : EngineChange) (count : Nat)
  | dropState (drop : Fin Config.dropCount) (c : DropChange) (count : Nat)
  | service (drop : Fin Config.dropCount)
  | frameEvent (f : FrameSummary)
  deriving DecidableEq, Repr

/-- A report in its place of the report queue (R122). -/
structure Queued where
  seq    : Byte
  report : Report
  deriving DecidableEq, Repr

/-- A set DROP latch (R129). -/
structure DropLatch where
  change : DropChange
  count  : Nat
  deriving DecidableEq, Repr

/-- A set engine latch (R132). -/
structure EngineLatch where
  change : EngineChange
  count  : Nat
  deriving DecidableEq, Repr

/-- REP (ch. 7 introduction). -/
structure Rep where
  queue          : List Queued
  nextSeq        : Byte
  maskDrop       : Mask
  maskService    : Mask
  maskFrame      : Mask
  dropLatches    : Vector (Option DropLatch) Config.dropCount
  serviceLatches : Vector Bool Config.dropCount
  frameLatch     : Option FrameSummary
  engineLatch    : Option EngineLatch
  deriving DecidableEq, Repr

/-! ### LNK -/

/-- The receiver of LRX (R153): the characters collected after SYNC. -/
inductive RxState where
  | hunting
  | collecting (bytes : List Byte)
  deriving DecidableEq, Repr

/-- The phase of an outstanding request (R157, R161). -/
inductive Phase where
  /-- Passed to its owner and not yet taken. -/
  | waiting
  /-- Taken; its reply waits for a state to be reached. -/
  | deferred
  /-- Its reply is ready. -/
  | ready
  deriving DecidableEq, Repr

/-- A place of the request buffer (R157). -/
structure Place where
  tag     : Byte
  check   : Word
  kind    : Byte
  payload : List Byte
  /-- Accepted while the session was open and not closing (R173). -/
  inOpen  : Bool
  phase   : Phase
  deriving DecidableEq, Repr

/-- What a reply frame answers: an outstanding request, none (the short-reply list, R157), or a request that
the session end abandoned while the frame was on the line (R173). -/
inductive Origin where
  | request | short | abandoned
  deriving DecidableEq, Repr

/-- A reply frame (R161), with the CHECK of the request it answers. -/
structure OutReply where
  kind    : Byte
  tag     : Byte
  payload : List Byte
  check   : Word
  origin  : Origin
  deriving DecidableEq, Repr

/-- LTX (R163): a report frame on the line counts when it will advance the send position at its end (R165). -/
inductive Ltx where
  | idle
  | reply (r : OutReply)
  | report (q : Queued) (counts : Bool)
  deriving DecidableEq, Repr

/-- The session record (R170). The silence timer holds the milliseconds it was loaded with. -/
structure Session where
  state       : SessionState
  window      : Nat
  resendTime  : Nat
  silenceTime : Nat
  action      : LinkLoss
  silence     : Option Nat
  endCause    : EndCause
  deriving DecidableEq, Repr

/-- The report send state (R164). The resend timer holds the milliseconds it was loaded with. -/
structure SendState where
  unacked  : Nat
  position : Nat
  resends  : Nat
  timer    : Option Nat
  path     : PathState
  deriving DecidableEq, Repr

/-- LNK (ch. 9 introduction). -/
structure Link where
  rate      : LinkRate
  receiver  : RxState
  /-- After a break, until the line has returned high (R154). -/
  breakHold : Bool
  places    : List Place
  /-- Ready replies, the first to be sent at the head (R163); those of origin `short` are the short-reply list. -/
  outbox    : List OutReply
  /-- Reply memory, newest first (R162). -/
  memory    : List OutReply
  ltx       : Ltx
  session   : Session
  send      : SendState
  badFrames : Nat
  deriving DecidableEq, Repr

/-! ### The part -/

/-- The state of the part, with the queue of commands that wait, first in first out. -/
structure State where
  link    : Link
  scm     : Scm
  fen     : Fen
  btx     : Btx
  drm     : Drm
  rst     : Rst
  rep     : Rep
  pending : List Instr
  deriving DecidableEq, Repr

/-- Faults: none. Nothing in the spec stops the part; errors are statuses, outcomes and counts. -/
inductive Fault
  deriving DecidableEq, Repr

/-- Refusals. -/
inductive Refusal where
  /-- Raised by an arm of `exec` whose command has no meaning yet; no arm of this model raises it. Safe. -/
  | notModelled (mnemonic : String)
  deriving DecidableEq, Repr

/-! ### Values at power-on -/

/-- The cleared send state (R164). -/
def SendState.cleared : SendState :=
  { unacked := 0, position := 0, resends := 0, timer := none, path := .sending }

/-- The session record at power-on (R170, R179; parameters 0 by 10.4). -/
def Session.initial : Session :=
  { state := .closed, window := 0, resendTime := 0, silenceTime := 0, action := .continue_,
    silence := none, endCause := .none }

/-- LNK at power-on (R179), with both straps low (log 5). -/
def Link.initial : Link :=
  { rate := .b115200, receiver := .hunting, breakHold := false, places := [], outbox := [], memory := [],
    ltx := .idle, session := .initial, send := .cleared, badFrames := 0 }

/-- SCM at power-on (R20). -/
def Scm.initial : Scm :=
  { entries := Vector.replicate _ { gen := 0, body := none },
    chains := Vector.replicate _ [], schedLen := 1 }

/-- The default bus configuration (R23). -/
def BusConfig.initial : BusConfig :=
  { rate := .m1, period := 8, guard := 64, settling := 4 }

/-- FEN at power-on and RESET ALL (R46, R151). -/
def Fen.initial : Fen :=
  { engine := .stopped, config := .initial, timer := none, frame := 0, plan := [], planPos := 0, slot := 0,
    stage := .idle, jamCount := 0, skipCount := 0, item := none, queue := [], ticket := 0,
    quietPending := false, settling := 0, watching := false, lowMeasure := 0, startPending := false,
    resetPending := false, haltCause := .host, judgeDue := false }

/-- An empty receiver. -/
def Receiver.empty : Receiver := { startAt := none, bytes := [], endAt := none }

/-- BTX at power-on and RESET ALL (R72). -/
def Btx.initial : Btx :=
  { state := .idle, dbde := false, capture := none, rx := .empty, jamRecord := 0, heard := [], waiting := [] }

/-- A drop record at power-on, after RESET ALL and after DROP-DETACH (R88, R91). -/
def DropRec.initial : DropRec :=
  { state := .off, threshold := 3, interval := 16, failures := 0, due := 0, identity := none,
    service := false, total := 0 }

/-- DRM at power-on and RESET ALL (R91): the cursor is address 24. -/
def Drm.initial : Drm :=
  { drops := Vector.replicate _ .initial, cursor := 23, probe := none }

/-- A result set at power-on (R117). -/
def SetRec.initial : SetRec :=
  { mode := .off, width := 1, slots := Vector.replicate _ none, fill := 0, newest := 0, latest := 0,
    block := 0, lost := 0 }

/-- RST at power-on and RESET ALL (R117, R118). -/
def Rst.initial : Rst := { sets := Vector.replicate _ .initial }

/-- REP at power-on and RESET ALL (R137). -/
def Rep.initial : Rep :=
  { queue := [], nextSeq := 0, maskDrop := .masked, maskService := .masked, maskFrame := .masked,
    dropLatches := Vector.replicate _ none, serviceLatches := Vector.replicate _ false,
    frameLatch := none, engineLatch := none }

/-- The part right after power-on, nothing waiting in its command queue. -/
def State.reset : State :=
  { link := .initial, scm := .initial, fen := .initial, btx := .initial, drm := .initial, rst := .initial,
    rep := .initial, pending := [] }

end Sys2Proof.Machine
end

