-- ==== Sys2Proof/Machine/Formats.lean ====
section
/-! DEFINITION. Bytes, codes, checks and frames of both lines (spec/10_frame_and_field_formats.md). -/

namespace Sys2Proof.Machine

/-! ### Bytes -/

/-- A count as a one-byte field (R180). -/
def byteOf (n : Nat) : Byte := BitVec.ofNat 8 n

/-- A count as a two-byte quantity (R180). -/
def wordOf (n : Nat) : Word := BitVec.ofNat 16 n

/-- The low byte of a quantity. -/
def lowByte (w : Word) : Byte := w.setWidth 8

/-- The high byte of a quantity. -/
def highByte (w : Word) : Byte := (w >>> 8).setWidth 8

/-- A quantity from its bytes. -/
def wordFrom (high low : Byte) : Word := high ++ low

/-- Host-link order: least significant byte first (R180). -/
def linkWord (w : Word) : List Byte := [lowByte w, highByte w]

/-- Drop-bus order: most significant byte first (R49, R184). -/
def busWord (w : Word) : List Byte := [highByte w, lowByte w]

/-- A flag field (R180). -/
def flagByte (b : Bool) : Byte := if b then 1 else 0

/-- The two-byte values of an answer, most significant byte first (R60, R184). -/
def busValues : List Byte → List Word
  | h :: l :: rest => wordFrom h l :: busValues rest
  | _ => []

/-- The level of a bit. -/
def levelOf (b : Bool) : Level := if b then .high else .low

/-- The levels of one character, one for each bit-time: start bit low, data bits least significant first, stop bit
high unless `framing` (R49). -/
def characterBits (b : Byte) (framing : Bool) : List Level :=
  .low :: ((List.range 8).map fun k => levelOf (b.getLsbD k)) ++ [levelOf (!framing)]

/-- A character tick by tick. -/
def characterLine (b : Byte) (framing : Bool) : List Level :=
  (characterBits b framing).flatMap (List.replicate Config.ticks)

/-- The bytes of a frame on the line, back to back (R49). -/
def frameLine (bytes : List Byte) : List Level := bytes.flatMap fun b => characterLine b false

/-! ### Checks (R185) -/

/-- One shift of the check register. -/
def crcShift (poly reg : Word) : Word :=
  if reg.msb then (reg <<< 1) ^^^ poly else reg <<< 1

/-- One covered byte taken into the check register. -/
def crcByte (poly reg : Word) (b : Byte) : Word :=
  let r0 := reg ^^^ (b.setWidth 16 <<< 8)
  crcShift poly (crcShift poly (crcShift poly (crcShift poly
    (crcShift poly (crcShift poly (crcShift poly (crcShift poly r0)))))))

/-- The link check: polynomial 0x8005, initial value 0xFFFF. -/
def linkCheck (covered : List Byte) : Word := covered.foldl (crcByte 0x8005) 0xFFFF

/-- The drop-bus check: polynomial 0x8BB7, initial value 0. -/
def busCheck (covered : List Byte) : Word := covered.foldl (crcByte 0x8BB7) 0

/-! ### Codes (10.2) -/

/-- Request codes. -/
def Request.code : Request → Byte
  | .open_ => 0x01 | .close => 0x02 | .identify => 0x03 | .status => 0x04 | .ackReports => 0x05
  | .reset => 0x06
  | .entryAdd => 0x10 | .entrySet => 0x11 | .entryLoad => 0x12 | .entryRead => 0x13 | .entryFree => 0x14
  | .chainInsert => 0x18 | .chainRemove => 0x19 | .chainRead => 0x1A | .scheduleLength => 0x1B
  | .busConfig => 0x20 | .start => 0x21 | .halt => 0x22 | .quiet => 0x23 | .wake => 0x24
  | .submit => 0x28 | .cancel => 0x29
  | .dropAttach => 0x30 | .dropDetach => 0x31 | .dropRead => 0x32 | .dropClearService => 0x33
  | .setConfig => 0x38 | .setRead => 0x39 | .eventMask => 0x3C

/-- The requests, in the order of their codes. -/
def allRequests : List Request :=
  [.open_, .close, .identify, .status, .ackReports, .reset,
   .entryAdd, .entrySet, .entryLoad, .entryRead, .entryFree,
   .chainInsert, .chainRemove, .chainRead, .scheduleLength,
   .busConfig, .start, .halt, .quiet, .wake, .submit, .cancel,
   .dropAttach, .dropDetach, .dropRead, .dropClearService, .setConfig, .setRead, .eventMask]

/-- The request a KIND names, if any (R158). -/
def requestOfKind (kind : Byte) : Option Request := allRequests.find? fun r => r.code == kind

/-- The KIND of a reply: the request code plus 0x80, or 0xFF for an unknown code (R161). -/
def replyKind (kind : Byte) : Byte :=
  match requestOfKind kind with
  | some _ => kind + 0x80
  | none => 0xFF

/-- Status codes. -/
def Status.code : Status → Byte
  | .ok => 0x00 | .accepted => 0x01 | .cancelled => 0x02 | .inFlight => 0x03 | .already => 0x04
  | .busy => 0x10 | .duplicate => 0x11 | .unknownRequest => 0x12 | .badLength => 0x13
  | .noSession => 0x14 | .alreadyOpen => 0x15 | .badAck => 0x16
  | .wrongState => 0x20 | .outOfRange => 0x21 | .stale => 0x22 | .conflict => 0x23
  | .noSpace => 0x30 | .inUse => 0x31 | .alreadyLinked => 0x32 | .chainFull => 0x33
  | .notLinked => 0x34 | .notFound => 0x35 | .tooLarge => 0x36 | .queueFull => 0x37 | .aborted => 0x38

/-- Transaction kind codes. -/
def TransKind.code : TransKind → Byte
  | .read => 1 | .write => 2 | .exchange => 3

/-- Attempt error codes; no error is 0. -/
def errorCode : Option AttemptError → Byte
  | none => 0
  | some .noAnswer => 1
  | some .badCheck => 2
  | some .wrongDrop => 3
  | some .badLength => 4

/-- Item outcome codes of an entry's last outcome. -/
def LastOutcome.code : LastOutcome → Byte
  | .never => 0 | .ok => 1 | .dropFault => 2 | .failed _ => 3 | .skipped => 4 | .notReady => 5

/-- The last-attempt error of an entry: NONE unless its last outcome is FAILED (10.4). -/
def LastOutcome.error : LastOutcome → Option AttemptError
  | .failed e => some e
  | .never | .ok | .dropFault | .skipped | .notReady => none

/-- Item outcome codes of a TICKET-DONE. -/
def TicketOutcome.code : TicketOutcome → Byte
  | .ok => 1 | .dropFault => 2 | .failed => 3 | .notReady => 5 | .aborted => 6

/-- Engine state codes. -/
def EngineState.code : EngineState → Byte
  | .stopped => 0 | .running => 1 | .halting => 2 | .quiet => 3 | .waking => 4

/-- Engine cause codes. -/
def EngineCause.code : EngineCause → Byte
  | .host => 1 | .jam => 2 | .wakePulse => 3 | .settled => 4 | .reset => 5 | .linkLoss => 6

/-- Drop state codes. -/
def DropState.code : DropState → Byte
  | .off => 0 | .seeking => 1 | .online => 2 | .failing => 3 | .quarantined => 4

/-- Drop transition codes. -/
def Transition.code : Transition → Byte
  | .arrived => 1 | .lost => 2 | .readmitted => 3 | .replaced => 4

/-- Set mode codes. -/
def SetMode.code : SetMode → Byte
  | .off => 0 | .block => 1 | .latest => 2

/-- Class mask codes. -/
def Mask.code : Mask → Byte
  | .masked => 0 | .unmasked => 1

/-- Link rate codes. -/
def LinkRate.code : LinkRate → Byte
  | .b115200 => 0 | .b230400 => 1 | .b460800 => 2 | .b921600 => 3

/-- Session state codes. -/
def SessionState.code : SessionState → Byte
  | .closed => 0 | .opened => 1 | .closing => 2

/-- Session end cause codes. -/
def EndCause.code : EndCause → Byte
  | .none => 0 | .close => 1 | .silence => 2

/-- Link-loss action codes. -/
def LinkLoss.code : LinkLoss → Byte
  | .continue_ => 0 | .halt => 1

/-- Report path state codes. -/
def PathState.code : PathState → Byte
  | .sending => 0 | .stalled => 1

/-- Drop-bus command codes (10.6). -/
def BusCommand.code : BusCommand → Byte
  | .read => 0x01 | .write => 0x02 | .exchange => 0x03 | .probe => 0x04

/-- A drop address as a field: `d - 1` is held for address d. -/
def dropByte (d : Fin Config.dropCount) : Byte := byteOf (d.val + 1)

/-! ### Link frames (10.1) -/

/-- The bytes of a link frame: SYNC, LEN, KIND, TAG, payload, CHECK low byte first. -/
def linkFrame (kind tag : Byte) (payload : List Byte) : List Byte :=
  let covered := byteOf payload.length :: kind :: tag :: payload
  0xC3 :: covered ++ linkWord (linkCheck covered)

/-- The CHECK of a frame with these parts. -/
def frameCheck (kind tag : Byte) (payload : List Byte) : Word :=
  linkCheck (byteOf payload.length :: kind :: tag :: payload)

/-! ### Report payloads (10.5, R183) -/

/-- The marks byte of a sample: bit 0 FAULT, bit 1 SERVICE (10.4). -/
def marksByte (fault service : Bool) : Byte :=
  flagByte fault + (flagByte service <<< 1)

/-- A sample as SET-READ and SET-BLOCK carry it (10.4). -/
def sampleBytes (s : Sample) : List Byte :=
  byteOf s.entry.val :: linkWord s.frame ++ [marksByte s.fault s.service] ++ s.values.flatMap linkWord

/-- The flags field of a TICKET-DONE: bit 7 present, bit 0 FAULT, bit 1 SERVICE (R183). -/
def ticketFlags : Option (Bool × Bool) → Byte
  | some (fault, service) => 0x80 + marksByte fault service
  | none => 0

/-- Report codes (10.2). -/
def Report.code : Report → Byte
  | .ticketDone _ => 0x41 | .setBlock _ => 0x42 | .engineState _ _ => 0x43 | .dropState _ _ _ => 0x44
  | .service _ => 0x45 | .frameEvent _ => 0x46

/-- The payload of a report (10.5). -/
def Report.payload : Report → List Byte
  | .ticketDone r =>
    linkWord r.ticket ++ [r.outcome.code, errorCode r.lastError, byteOf r.attempts] ++ linkWord r.frame
      ++ [ticketFlags r.flags, byteOf r.values.length] ++ r.values.flatMap linkWord
  | .setBlock r =>
    byteOf r.set.val :: linkWord r.block ++ [byteOf r.lost, byteOf r.width] ++ r.samples.flatMap sampleBytes
  | .engineState c count =>
    [c.new.code, c.left.code, c.cause.code] ++ linkWord c.frame ++ [byteOf count]
  | .dropState d c count => [dropByte d, c.left.code, c.entered.code, c.kind.code, byteOf count]
  | .service d => [dropByte d]
  | .frameEvent f =>
    byteOf f.slot.val :: linkWord f.frame ++ linkWord (wordOf f.skipped) ++ [byteOf f.jams]
      ++ linkWord (wordOf f.frames)

/-- The bytes on LTX: those of the reply or report frame being sent (R161, R183). -/
def ltxBytes : Ltx → List Byte
  | .idle => []
  | .reply r => linkFrame r.kind r.tag r.payload
  | .report q _ => linkFrame q.report.code q.seq q.report.payload

/-! ### Drop-bus frames (10.6, R184) -/

/-- SYNC, the covered bytes, and CHECK high byte first. -/
def busFrame (covered : List Byte) : List Byte := 0x5A :: covered ++ busWord (busCheck covered)

/-- The request frame of a capture (R52): NIN is the capture's in count, 0 for WRITE and 2 for PROBE. -/
def requestFrame (c : Capture) : List Byte :=
  busFrame ([dropByte c.drop, c.cmd.code, byteOf c.first, byteOf c.inCount, byteOf c.outCount]
    ++ c.outputs.flatMap busWord)

/-- The parameter byte of a beacon: the frame number modulo 128, SETTLING in bit 7 (R55, R184). -/
def beaconByte (settling : Bool) (number : Word) : Byte :=
  byteOf (number.toNat % 128) + (flagByte settling <<< 7)

/-- A broadcast frame (R54, R56). -/
def broadcastFrame : Broadcast → List Byte
  | .beacon settling number => busFrame [0, 0x08, beaconByte settling number]
  | .quiet => busFrame [0, 0x09, 0]
  | .resume => busFrame [0, 0x0A, 0]

/-- The bytes BTX drives onto the drop bus. -/
def busBytes (x : Btx) : List Byte :=
  match x.state, x.capture with
  | .request, some c => requestFrame c
  | .broadcast b, _ => broadcastFrame b.what
  | _, _ => []

/-- An answer frame as a conforming drop sends it (R57). -/
def answerFrame (addr status : Byte) (values : List Word) : List Byte :=
  let covered := [addr, status, byteOf values.length] ++ values.flatMap busWord
  covered ++ busWord (busCheck covered)

end Sys2Proof.Machine
end

