-- ==== Sys2Proof/Machine/Flags.lean ====
section
/-! DEFINITION. The flags the lines carry: the STATUS byte of an answer, the flag fields of requests and the
latch summary of STATUS. -/

namespace Sys2Proof.Machine

/-- FAULT in an answer's STATUS: bit 0 (R184). -/
def faultFlag (status : Byte) : Bool := status.getLsbD 0

/-- SERVICE in an answer's STATUS: bit 1 (R184). -/
def serviceFlag (status : Byte) : Bool := status.getLsbD 1

/-- A flag field of a request: 0 clear, 1 set, any other value out of range (R180). -/
def flagOfByte (b : Byte) : Option Bool :=
  if b = 0 then some false else if b = 1 then some true else none

/-- Eight latches as one byte of the summary: drop d in bit (d - 1) mod 8 (10.4). -/
def latchByte (set : Fin Config.dropCount → Bool) (group : Nat) : Byte :=
  byteOf (((List.finRange Config.dropCount).filter fun d => d.val / 8 == group && set d).foldl
    (fun n d => n + 2 ^ (d.val % 8)) 0)

/-- The three bytes of a latch summary (10.4). -/
def latchBytes (set : Fin Config.dropCount → Bool) : List Byte :=
  [latchByte set 0, latchByte set 1, latchByte set 2]

end Sys2Proof.Machine
end

