-- ==== Sys2Proof/Machine/Operands.lean ====
section
/-! DEFINITION. Request operands: owners (R160), payload lengths (R181), payload layouts (10.3) and the range
checks that turn field bytes into values (R2, R23, R73, R107, R171, R180). -/

namespace Sys2Proof.Machine

/-- The owner of a request (R160). -/
def Request.owner : Request → Owner
  | .open_ | .close | .identify | .status | .ackReports | .reset => .lnk
  | .entryAdd | .entrySet | .entryLoad | .entryRead | .entryFree
  | .chainInsert | .chainRemove | .chainRead | .scheduleLength => .scm
  | .busConfig | .start | .halt | .quiet | .wake | .submit | .cancel => .fen
  | .dropAttach | .dropDetach | .dropRead | .dropClearService => .drm
  | .setConfig | .setRead => .rst
  | .eventMask => .rep

/-- Whether a payload has a length its request takes (R181). -/
def lengthOk (r : Request) (payload : List Byte) : Bool :=
  let len := payload.length
  match r with
  | .close | .identify | .status | .start | .halt | .quiet | .wake => len == 0
  | .ackReports | .reset | .entryRead | .chainRead | .scheduleLength
  | .dropDetach | .dropRead | .dropClearService | .setRead => len == 1
  | .entryFree | .chainRemove | .cancel => len == 2
  | .dropAttach | .setConfig | .eventMask => len == 3
  | .open_ | .chainInsert | .busConfig => len == 4
  | .entryAdd => len == 9
  | .entrySet => len == 11
  | .entryLoad => decide (5 ≤ len) && decide (len ≤ 35) && len % 2 == 1
  | .submit => decide (7 ≤ len) && len - 7 == 2 * (payload.getD 4 0).toNat

/-- Whether a request goes on to its owner when no session is open (R159). -/
def Request.anySession : Request → Bool
  | .open_ | .identify | .status => true
  | .close | .ackReports | .reset
  | .entryAdd | .entrySet | .entryLoad | .entryRead | .entryFree
  | .chainInsert | .chainRemove | .chainRead | .scheduleLength
  | .busConfig | .start | .halt | .quiet | .wake | .submit | .cancel
  | .dropAttach | .dropDetach | .dropRead | .dropClearService
  | .setConfig | .setRead | .eventMask => false

/-! ### Layouts -/

/-- The entry parameter block (10.3). -/
def paramBytes (p : ParamBlock) : List Byte :=
  [p.kind, p.drop, p.first, p.inCount, p.outCount, p.retries, p.routeFlag, p.routeSet, p.routeOffset]

/-- The parameter block of an entry, as ENTRY-READ returns it (10.4, R181). -/
def entryParamBytes (b : EntryBody) : List Byte :=
  [b.trans.kind.code, dropByte b.trans.drop, byteOf b.trans.first, byteOf b.trans.inCount,
   byteOf b.trans.outCount, byteOf b.trans.retries]
  ++ match b.route with
    | some r => [1, byteOf r.set.val, byteOf r.offset]
    | none => [0, 0, 0]

/-- The payload of a SUBMIT (10.3). -/
def submitBytes (kind drop first inCount outCount retries force : Byte) (values : List Word) : List Byte :=
  [kind, drop, first, inCount, outCount, retries, force] ++ values.flatMap linkWord

/-! ### Field ranges -/

/-- A field below `n`, as an index. -/
def indexOf (n : Nat) (b : Byte) : Option (Fin n) :=
  if h : b.toNat < n then some ⟨b.toNat, h⟩ else none

/-- A drop address 1..24 (R73). -/
def dropOf (b : Byte) : Option (Fin Config.dropCount) :=
  if h : b.toNat - 1 < Config.dropCount ∧ 1 ≤ b.toNat then some ⟨b.toNat - 1, h.1⟩ else none

/-- A transaction kind code. -/
def kindOf (b : Byte) : Option TransKind :=
  if b = 1 then some .read else if b = 2 then some .write else if b = 3 then some .exchange else none

/-- Whether the counts are in their kind's row (R2, R92). -/
def countsOk (k : TransKind) (i o : Nat) : Bool :=
  match k with
  | .read => decide (1 ≤ i) && decide (i ≤ 16) && o == 0
  | .write => i == 0 && decide (1 ≤ o) && decide (o ≤ 16)
  | .exchange => decide (1 ≤ i) && decide (i ≤ 16) && decide (1 ≤ o) && decide (o ≤ 16)

/-- The fields that an entry and an ad hoc item share, when all are in range (R2, R92, R94). -/
def parseTransaction (kind drop first inCount outCount retries : Byte) : Option Transaction :=
  match kindOf kind, dropOf drop with
  | some k, some d =>
    if countsOk k inCount.toNat outCount.toNat && decide (first.toNat ≤ 63)
        && decide (first.toNat + max inCount.toNat outCount.toNat ≤ 64) && decide (retries.toNat ≤ 3) then
      some { kind := k, drop := d, first := first.toNat, inCount := inCount.toNat,
             outCount := outCount.toNat, retries := retries.toNat }
    else none
  | _, _ => none

/-- The route a block gives, when its flag, set and offset are in range (R2, R180): `some none` is no route. -/
def parseRoute (flag set offset : Byte) : Option (Option Route) :=
  match flagOfByte flag with
  | some false => some none
  | some true =>
    match indexOf Config.setCount set with
    | some w => if offset.toNat < 16 then some (some { set := w, offset := offset.toNat }) else none
    | none => none
  | none => none

/-- The parameter fields of an ENTRY-ADD or ENTRY-SET, when all are in range (R2). -/
def parseParams (p : ParamBlock) : Option (Transaction × Option Route) :=
  match parseTransaction p.kind p.drop p.first p.inCount p.outCount p.retries,
        parseRoute p.routeFlag p.routeSet p.routeOffset with
  | some t, some r => some (t, r)
  | _, _ => none

/-- A rate code (R24). -/
def rateOf (b : Byte) : Option BusRate :=
  if b = 0 then some .k250 else if b = 1 then some .k500 else if b = 2 then some .m1
  else if b = 3 then some .m2 else none

/-- A set mode code (R114). -/
def modeOf (b : Byte) : Option SetMode :=
  if b = 0 then some .off else if b = 1 then some .block else if b = 2 then some .latest else none

/-- A class mask code (R135). -/
def maskOf (b : Byte) : Option Mask :=
  if b = 0 then some .masked else if b = 1 then some .unmasked else none

/-- A link-loss action code (R171). -/
def actionOf (b : Byte) : Option LinkLoss :=
  if b = 0 then some .continue_ else if b = 1 then some .halt else none

/-- Whether a value is a schedule length (R6, R17). -/
def isSchedLen (n : Nat) : Bool := n == 1 || n == 2 || n == 4 || n == 8 || n == 16 || n == 32

/-! ### Costs -/

/-- The worst-case cost of one attempt (R63). -/
def attemptCost (i o : Nat) : Nat := 162 + 20 * (o + i)

/-- W of a transaction (R2, R92). -/
def Transaction.cost (t : Transaction) : Nat := attemptCost t.inCount t.outCount

/-- Bit-times in four frame periods of 125 µs at a rate: rate × 500 µs. -/
def BusRate.per500us : BusRate → Nat
  | .k250 => 125 | .k500 => 250 | .m1 => 500 | .m2 => 1000

/-- The frame length F: whole bit-times of rate × P × 125 µs (R23). -/
def BusConfig.frameLen (c : BusConfig) : Nat := c.rate.per500us * c.period / 4

/-- The bit-time at which the guard starts, F − G (R23). -/
def BusConfig.guardStart (c : BusConfig) : Nat := c.frameLen - c.guard

/-- The budget B = F − 68 − G (R23). -/
def BusConfig.budget (c : BusConfig) : Nat := c.frameLen - Config.beaconCost - c.guard

/-- The request frame's time on the line, 10·(8 + 2o) (R52). -/
def requestTime (o : Nat) : Nat := 10 * (8 + 2 * o)

/-- The answer limit, 10·(5 + 2i) (R58). -/
def answerLimit (i : Nat) : Nat := 10 * (5 + 2 * i)

end Sys2Proof.Machine
end

