-- ==== Sys2Proof/Machine/Ops.lean ====
section
/-! DEFINITION. The named operations over the state that the meanings share: tables, blocks, replies (R157,
R161), report admission and latches (ch. 7), engine state changes (R22), broadcasts (R51, R54). -/

namespace Sys2Proof.Machine

/-! ### Tables of fixed size -/

/-- A row of a table. -/
def tget {α : Type} {n : Nat} (v : Vector α n) (i : Fin n) : α := v[i.val]

/-- A table with one row replaced. -/
def tput {α : Type} {n : Nat} (v : Vector α n) (i : Fin n) (x : α) : Vector α n := v.set i.val x

/-- A table with every row changed. -/
def tmap {α : Type} {n : Nat} (f : α → α) (v : Vector α n) : Vector α n :=
  ⟨⟨v.toArray.toList.map f⟩, by simp⟩

/-! ### Saturating counts (00_scope.md, 1.7) -/

/-- `a + b`, stopping at the limit. -/
def satAdd (limit a b : Nat) : Nat := min (a + b) limit

/-! ### Replacing one block -/

/-- The state with another LNK. -/
def State.setLink (s : State) (x : Link) : State := { s with link := x }
/-- The state with another SCM. -/
def State.setScm (s : State) (x : Scm) : State := { s with scm := x }
/-- The state with another FEN. -/
def State.setFen (s : State) (x : Fen) : State := { s with fen := x }
/-- The state with another BTX. -/
def State.setBtx (s : State) (x : Btx) : State := { s with btx := x }
/-- The state with another DRM. -/
def State.setDrm (s : State) (x : Drm) : State := { s with drm := x }
/-- The state with another RST. -/
def State.setRst (s : State) (x : Rst) : State := { s with rst := x }
/-- The state with another REP. -/
def State.setRep (s : State) (x : Rep) : State := { s with rep := x }

/-! ### Replies (R157, R161) -/

/-- The place of an outstanding request; tags of outstanding requests differ (R156). -/
def Link.placeOf (l : Link) (tag : Byte) : Option Place := l.places.find? fun p => p.tag == tag

/-- The reply frame that answers a place. -/
def replyTo (p : Place) (st : Status) (data : List Byte) : OutReply :=
  { kind := replyKind p.kind, tag := p.tag, payload := st.code :: data, check := p.check, origin := .request }

/-- The places with the phase of some of them changed. -/
def setPhase (sel : Place → Bool) (ph : Phase) (ps : List Place) : List Place :=
  ps.map fun p => if sel p then { p with phase := ph } else p

/-- The outstanding request of this tag gets its reply, which is ready (R161). -/
def linkReply (tag : Byte) (st : Status) (data : List Byte) (l : Link) : Link :=
  match l.placeOf tag with
  | some p =>
    { l with
      places := setPhase (fun q => q.tag == tag) .ready l.places,
      outbox := l.outbox ++ [replyTo p st data] }
  | none => l

/-- `linkReply` on the state. -/
def reply (tag : Byte) (st : Status) (data : List Byte) (s : State) : State :=
  s.setLink (linkReply tag st data s.link)

/-- The outstanding request of this tag waits for a state to be reached (R30). -/
def deferReply (tag : Byte) (s : State) : State :=
  s.setLink { s.link with places := setPhase (fun q => q.tag == tag) .deferred s.link.places }

/-- Whether a place is a deferred request among some. -/
def isDeferred (sel : Request → Bool) (p : Place) : Bool :=
  p.phase == .deferred &&
    match requestOfKind p.kind with
    | some r => sel r
    | none => false

/-- Deferred requests are answered, in the order their frames were received (R30, R163). -/
def linkAnswer (sel : Request → Bool) (st : Status) (data : List Byte) (l : Link) : Link :=
  { l with
    places := setPhase (isDeferred sel) .ready l.places,
    outbox := l.outbox ++ (l.places.filter (isDeferred sel)).map fun p => replyTo p st data }

/-- `linkAnswer` on the state. -/
def answerDeferred (sel : Request → Bool) (st : Status) (data : List Byte) (s : State) : State :=
  s.setLink (linkAnswer sel st data s.link)

/-- The requests whose replies FEN defers (R30). -/
def isEngineDeferred : Request → Bool
  | .halt | .quiet | .wake => true
  | _ => false

/-! ### Taking a frame that has passed the check (9.3, steps 1 to 5) -/

/-- A link frame that has passed the check. -/
structure Frame where
  kind    : Byte
  tag     : Byte
  payload : List Byte
  check   : Word
  deriving DecidableEq, Repr

/-- Replies in the short-reply list, the one on LTX among them (R157). -/
def Link.shortCount (l : Link) : Nat :=
  (l.outbox.filter fun r => r.origin == .short).length +
    match l.ltx with
    | .reply r => if r.origin = .short then 1 else 0
    | _ => 0

/-- A reply joins the short-reply list, or is discarded when the list is full (R157). -/
def pushShort (r : OutReply) (l : Link) : Link :=
  if l.shortCount < Config.shortPlaces then { l with outbox := l.outbox ++ [{ r with origin := .short }] } else l

/-- A reply to a frame that takes no place: BUSY or DUPLICATE (R161). -/
def shortReply (f : Frame) (st : Status) : OutReply :=
  { kind := replyKind f.kind, tag := f.tag, payload := [st.code], check := f.check, origin := .short }

/-- The status that refuses an accepted frame at step 3 or 4, if one does (R158, R159, R181). -/
def refusalOf (f : Frame) (l : Link) : Option Status :=
  match requestOfKind f.kind with
  | none => some .unknownRequest
  | some r =>
    if !lengthOk r f.payload then some .badLength
    else if l.session.state != .opened && !r.anySession then some .noSession
    else none

/-- Steps 2 to 5: the frame takes a place; it is answered at once when steps 3 and 4 refuse it, and is passed
to its owner otherwise (R157 to R160). -/
def acceptFrame (f : Frame) (l : Link) : Link :=
  let p : Place :=
    { tag := f.tag, check := f.check, kind := f.kind, payload := f.payload,
      inOpen := l.session.state == .opened, phase := .waiting }
  match refusalOf f l with
  | none => { l with places := l.places ++ [p] }
  | some st =>
    { l with places := l.places ++ [{ p with phase := .ready }], outbox := l.outbox ++ [replyTo p st []] }

/-- A frame that has passed the check restarts the silence timer of an open session (R155, R170). -/
def restartSilence (l : Link) : Link :=
  if l.session.state = .closed then l
  else { l with session := { l.session with silence := some (100 * l.session.silenceTime) } }

/-- Steps 1 to 5 for a frame that has passed the check (R156, R157). -/
def takeFrame (f : Frame) (l0 : Link) : Link :=
  let l := restartSilence l0
  match l.memory.find? (fun m => m.tag == f.tag && m.check == f.check) with
  | some m => pushShort m l
  | none =>
    match l.placeOf f.tag with
    | some p => if p.check = f.check then l else pushShort (shortReply f .duplicate) l
    | none =>
      if l.places.length < Config.requestPlaces then acceptFrame f l
      else pushShort (shortReply f .busy) l

/-! ### The owner takes a request (R160) -/

/-- A RESET of scope ENGINE or ALL that LNK has not taken yet (R176). -/
def waitingReset (p : Place) : Bool :=
  p.phase == .waiting && p.kind == Request.reset.code && (p.payload == [0] || p.payload == [1])

/-- The outstanding requests up to the first RESET that waits: those accepted after it meet the blocks in their reset
state, so no owner takes them before it (R176). -/
def upToReset : List Place → List Place
  | [] => []
  | p :: rest => if waitingReset p then [p] else p :: upToReset rest

/-- The oldest request that waits at an owner, unless a RESET that waits was accepted before it. -/
def Link.oldest (l : Link) (o : Owner) : Option Place :=
  (upToReset l.places).find? fun p => p.phase == .waiting && ((requestOfKind p.kind).map Request.owner == some o)

/-- Whether a place is a request of this code, tag and payload. -/
def isRequest (r : Request) (tag : Byte) (payload : List Byte) (p : Place) : Bool :=
  p.tag == tag && p.kind == r.code && p.payload == payload

/-- Whether a request of this code, tag and payload waits at its owner. -/
def isWaiting (r : Request) (tag : Byte) (payload : List Byte) (l : Link) : Bool :=
  l.places.any fun p => p.phase == .waiting && isRequest r tag payload p

/-- FEN holds its requests back while a RESET ENGINE sends its RESUME, and LNK a further RESET (R150, R176). -/
def heldBack (r : Request) (f : Fen) : Bool :=
  f.resetPending && (r.owner == .fen || r == .reset)

/-- The owner may take this request now: it is the oldest that waits there and is not held back. -/
def mayTake (r : Request) (tag : Byte) (payload : List Byte) (s : State) : Bool :=
  (match s.link.oldest r.owner with
   | some p => isRequest r tag payload p
   | none => false) && !heldBack r s.fen

/-- The host's request frame arrives whole and in good order at a receiver that hunts (log 1); a payload
longer than 240 bytes is no frame (R154). -/
def arrive (r : Request) (tag : Byte) (payload : List Byte) (s : State) : State :=
  if s.link.receiver = .hunting ∧ payload.length ≤ Config.payloadLimit then
    s.setLink (takeFrame { kind := r.code, tag := tag, payload := payload,
                           check := frameCheck r.code tag payload } { s.link with breakHold := false })
  else s

/-- A request command: the request is brought to its owner unless it waits there already, and the owner takes
it if its turn has come; `effect` is what the owner does. -/
def takeRequest (r : Request) (tag : Byte) (payload : List Byte) (effect : State → State) (s : State) :
    Host.Outcome State Fault Refusal :=
  let s1 := if isWaiting r tag payload s.link then s else arrive r tag payload s
  if mayTake r tag payload s1 then .next (effect s1) else .next s1

/-! ### Report admission (7.2, 7.3) -/

/-- 1 while an item with a ticket is in flight (R96). -/
def inFlightTickets (f : Fen) : Nat :=
  match f.item with
  | some { source := .adHoc _ true, .. } => 1
  | _ => 0

/-- t, the number of outstanding tickets (R96). -/
def ticketCount (f : Fen) : Nat := f.queue.length + inFlightTickets f

/-- Whether a session is open, closing or not (R170). -/
def Session.isOpen (s : Session) : Bool := s.state != .closed

/-- The admission test (R125), from the session, t and the queue. -/
def admits (isOpen : Bool) (t : Nat) (p : Rep) : Bool :=
  isOpen && decide (p.queue.length + t < Config.reportPlaces)

/-- The admission test on the state. -/
def State.admits (s : State) : Bool := Machine.admits s.link.session.isOpen (ticketCount s.fen) s.rep

/-- Admission: the next sequence number and the tail of the queue (R123). -/
def enqueue (r : Report) (p : Rep) : Rep :=
  { p with queue := p.queue ++ [{ seq := p.nextSeq, report := r }], nextSeq := p.nextSeq + 1 }

/-- A TICKET-DONE is always admitted (R124). -/
def offerTicketDone (r : TicketDone) (s : State) : State := s.setRep (enqueue (.ticketDone r) s.rep)

/-- An ENGINE-STATE is merged into a set engine latch, admitted, or latched (R132). -/
def repEngine (ok : Bool) (c : EngineChange) (p : Rep) : Rep :=
  match p.engineLatch with
  | some l => { p with engineLatch := some { change := c, count := satAdd Config.limit8 l.count 1 } }
  | none =>
    if ok then enqueue (.engineState c 1) p
    else { p with engineLatch := some { change := c, count := 1 } }

/-- `repEngine` on the state. -/
def offerEngine (c : EngineChange) (s : State) : State := s.setRep (repEngine s.admits c s.rep)

/-- A DROP-STATE is merged, admitted or latched (R128, R129). -/
def repDrop (ok : Bool) (d : Fin Config.dropCount) (c : DropChange) (p : Rep) : Rep :=
  match tget p.dropLatches d with
  | some l =>
    { p with dropLatches := tput p.dropLatches d (some { change := c, count := satAdd Config.limit8 l.count 1 }) }
  | none =>
    if p.maskDrop = .unmasked ∧ ok then enqueue (.dropState d c 1) p
    else { p with dropLatches := tput p.dropLatches d (some { change := c, count := 1 }) }

/-- `repDrop` on the state. -/
def offerDrop (d : Fin Config.dropCount) (c : DropChange) (s : State) : State :=
  s.setRep (repDrop s.admits d c s.rep)

/-- A SERVICE is merged, admitted or latched (R128, R130). -/
def repService (ok : Bool) (d : Fin Config.dropCount) (p : Rep) : Rep :=
  if tget p.serviceLatches d then p
  else if p.maskService = .unmasked ∧ ok then enqueue (.service d) p
  else { p with serviceLatches := tput p.serviceLatches d true }

/-- `repService` on the state. -/
def offerService (d : Fin Config.dropCount) (s : State) : State := s.setRep (repService s.admits d s.rep)

/-- A FRAME-EVENT is merged, admitted or latched (R128, R131). -/
def repFrame (ok : Bool) (f : FrameSummary) (p : Rep) : Rep :=
  match p.frameLatch with
  | some l =>
    { p with
      frameLatch := some
        { slot := f.slot, frame := f.frame,
          skipped := satAdd Config.limit16 l.skipped f.skipped,
          jams := satAdd Config.limit8 l.jams f.jams,
          frames := satAdd Config.limit16 l.frames f.frames } }
  | none =>
    if p.maskFrame = .unmasked ∧ ok then enqueue (.frameEvent f) p
    else { p with frameLatch := some f }

/-- `repFrame` on the state. -/
def offerFrame (f : FrameSummary) (s : State) : State := s.setRep (repFrame s.admits f s.rep)

/-! ### Offering latches (7.6) -/

/-- A latch of REP. -/
inductive LatchId where
  | engine
  | drop (d : Fin Config.dropCount)
  | service (d : Fin Config.dropCount)
  | frame
  deriving DecidableEq, Repr

/-- The report a set latch becomes (R129 to R132). -/
def latchReport (p : Rep) : LatchId → Option Report
  | .engine => p.engineLatch.map fun l => .engineState l.change l.count
  | .drop d => (tget p.dropLatches d).map fun l => .dropState d l.change l.count
  | .service d => if tget p.serviceLatches d then some (.service d) else none
  | .frame => p.frameLatch.map .frameEvent

/-- REP with a latch clear. -/
def clearLatch (p : Rep) : LatchId → Rep
  | .engine => { p with engineLatch := none }
  | .drop d => { p with dropLatches := tput p.dropLatches d none }
  | .service d => { p with serviceLatches := tput p.serviceLatches d false }
  | .frame => { p with frameLatch := none }

/-- An offering: the set latches, in order, up to the first that fails the test; and how many were admitted
(R133). -/
def offering (isOpen : Bool) (t : Nat) : List LatchId → Rep → Rep × Nat
  | [], p => (p, 0)
  | l :: rest, p =>
    match latchReport p l with
    | none => offering isOpen t rest p
    | some r =>
      if admits isOpen t p then
        let out := offering isOpen t rest (enqueue r (clearLatch p l))
        (out.1, out.2 + 1)
      else (p, 0)

/-- The latches of some classes in the order of an offering (R133). -/
def latchOrder (engine drop service frame : Bool) : List LatchId :=
  (if engine then [.engine] else [])
  ++ (if drop then (List.finRange Config.dropCount).map .drop else [])
  ++ (if service then (List.finRange Config.dropCount).map .service else [])
  ++ (if frame then [.frame] else [])

/-- An offering on the state, with the number of reports it admitted. -/
def offerLatches (ids : List LatchId) (s : State) : State × Nat :=
  let out := offering s.link.session.isOpen (ticketCount s.fen) ids s.rep
  (s.setRep out.1, out.2)

/-! ### Engine state changes (R22) -/

/-- The engine enters a state, and the change is offered with the frame counter value of that moment. -/
def enterEngine (new : EngineState) (cause : EngineCause) (s : State) : State :=
  offerEngine { new := new, left := s.fen.engine, cause := cause, frame := s.fen.frame }
    (s.setFen { s.fen with engine := new })

/-! ### The drop bus -/

/-- BTX begins a broadcast: it drives the line and listens no more (R50, R51). -/
def btxBegin (b : Handed) (x : Btx) : Btx := { x with state := .broadcast b, dbde := true, heard := [] }

/-- BTX is handed a broadcast: it begins it when IDLE, and keeps it waiting otherwise (R51, R54). -/
def btxHand (b : Handed) (x : Btx) : Btx :=
  if x.state = .idle then btxBegin b x else { x with waiting := x.waiting ++ [b] }

/-- FEN hands over a broadcast, at the rate of the configuration in force (R56). -/
def handBroadcast (b : Broadcast) (s : State) : State :=
  s.setBtx (btxHand { what := b, rate := s.fen.config.rate } s.btx)

/-- The rate of what is on the drop bus: that of the broadcast on it, else the configuration's (R23, R56). -/
def State.busRate (s : State) : BusRate :=
  match s.btx.state with
  | .broadcast b | .gap (.broadcast b) => b.rate
  | .idle | .request | .wait | .answer | .gap (.attempt _) => s.fen.config.rate

/-! ### Bus time and the line (R25, R50, R68) -/

/-- Ticks of bus time pass while the frame timer runs (R25). -/
def passTime (n : Nat) (s : State) : State :=
  s.setFen { s.fen with timer := s.fen.timer.map (· + n) }

/-- The remaining time: whole bit-times to the guard start (R25). -/
def remaining (f : Fen) : Nat :=
  match f.timer with
  | some t => (Config.ticks * f.config.guardStart - t) / Config.ticks
  | none => 0

/-- The guard start has come: the ad hoc stage has ended, and with it the examination of its queue (R25, R35). -/
def guardStarted (f : Fen) : Bool :=
  match f.timer with
  | some t => decide (Config.ticks * f.config.guardStart ≤ t)
  | none => true

/-- `n` ticks of a line, idle where it says nothing: the bus bias holds an undriven line high (R50). -/
def ticksOf (n : Nat) (line : List Level) : List Level := (line ++ List.replicate n Level.high).take n

/-- The grains of the jam record, eighths of a microsecond, in a tick at a rate. -/
def BusRate.grains : BusRate → Nat
  | .k250 => 8
  | .k500 => 4
  | .m1 => 2
  | .m2 => 1

/-- One more tick of `g` grains in the jam record (R68). -/
def recordTick (g : Nat) (r : BitVec 256) (l : Level) : BitVec 256 :=
  (r <<< g) ||| (if l = .low then BitVec.ofNat 256 (2 ^ g - 1) else 0)

/-- `n` ticks at a rate pass with the line released: it goes into the jam record, and what it says beyond them is kept
(R68). -/
def btxHear (rate : BusRate) (n : Nat) (line : List Level) (x : Btx) : Btx :=
  { x with jamRecord := (ticksOf n line).foldl (recordTick rate.grains) x.jamRecord, heard := line.drop n }

/-- `n` ticks at a rate pass in which the part drives the line: they count as idle in the jam record (R68). -/
def btxDrive (rate : BusRate) (n : Nat) (x : Btx) : Btx := { x with jamRecord := x.jamRecord <<< (n * rate.grains) }

/-- Whether the line was low in the last 8 bit-times, those of the rate in force (R68, R69; log 31). -/
def Btx.jammed (x : Btx) (inForce : BusRate) : Bool :=
  x.jamRecord.setWidth (Config.ticks * Config.jamTime * inForce.grains) != 0

/-- A line given in ticks of one rate, in ticks of another: a tick is low where the line was low at any time in it. -/
def reTick (old new : BusRate) (line : List Level) : List Level :=
  let fine := line.flatMap (List.replicate old.grains)
  (List.range ((fine.length + new.grains - 1) / new.grains)).map fun k =>
    if ((fine.drop (k * new.grains)).take new.grains).contains .low then .low else .high

/-- The line from where the last bus command left off. -/
def Btx.lineWith (x : Btx) (line : List Level) : List Level := x.heard ++ line

/-- `n` ticks of the line pass. -/
def hear (n : Nat) (line : List Level) (s : State) : State :=
  passTime n (s.setBtx (btxHear s.busRate n (s.btx.lineWith line) s.btx))

/-- All of the line that is given passes. -/
def hearAll (line : List Level) (s : State) : State := hear (s.btx.lineWith line).length line s

/-- `n` ticks of a transmission of the part's own pass. -/
def drive (n : Nat) (s : State) : State := passTime n (s.setBtx (btxDrive s.busRate n s.btx))

/-- Abandonment of an attempt (R70): a broadcast on the line is left alone (R71). -/
def btxAbandon (x : Btx) : Btx :=
  match x.state with
  | .broadcast _ | .gap (.broadcast _) => { x with capture := none }
  | .idle | .request | .wait | .answer | .gap (.attempt _) =>
    { x with state := .idle, dbde := false, capture := none, rx := .empty }

end Sys2Proof.Machine
end

