-- ==== Sys2Proof/Machine/Deposits.lean ====
section
/-! DEFINITION. Result sets: the samples they hold and the deposits they take (spec/06_result_sets.md). -/

namespace Sys2Proof.Machine

/-- The samples a set holds, in the order SET-READ returns them (R116): deposit order in BLOCK, newest first
in LATEST. -/
def setSamples (r : SetRec) : List Sample :=
  match r.mode with
  | .off => []
  | .block => (List.range r.fill).filterMap fun k => tget r.slots (Fin.ofNat 4 k)
  | .latest => (List.range r.latest).filterMap fun k => tget r.slots (r.newest - Fin.ofNat 4 k)

/-- Four empty slots. -/
def emptySlots : Vector (Option Sample) 4 := Vector.replicate _ none

/-- A set with its samples discarded and its counts and numbers at 0 (R114, R119). -/
def emptySet (mode : SetMode) (width : Nat) : SetRec :=
  { mode := mode, width := width, slots := emptySlots, fill := 0, newest := 0, latest := 0, block := 0,
    lost := 0 }

/-- A sample joins a partial block of fewer than three (R110). -/
def addToBlock (x : Sample) (r : SetRec) : SetRec :=
  { r with slots := tput r.slots (Fin.ofNat 4 r.fill) (some x), fill := r.fill + 1 }

/-- The SET-BLOCK that a fourth sample completes (R111, R112). -/
def blockReport (set : Fin Config.setCount) (x : Sample) (r : SetRec) : SetBlock :=
  { set := set, block := r.block, lost := r.lost, width := r.width, samples := setSamples r ++ [x] }

/-- The set after its block was admitted or refused (R111). -/
def afterBlock (admitted : Bool) (r : SetRec) : SetRec :=
  { r with
    slots := emptySlots, fill := 0, block := r.block + 1,
    lost := if admitted then 0 else satAdd Config.limit8 r.lost 1 }

/-- A sample joins the ring of a LATEST set (R113). -/
def addToLatest (x : Sample) (r : SetRec) : SetRec :=
  let pos : Fin 4 := if r.latest = 0 then 0 else r.newest + 1
  { r with slots := tput r.slots pos (some x), newest := pos, latest := min (r.latest + 1) 4 }

/-- The state with one set replaced. -/
def putSet (set : Fin Config.setCount) (r : SetRec) (s : State) : State :=
  s.setRst { sets := tput s.rst.sets set r }

/-- One deposit (R109): discarded, added to the partial block, completing a block, or added to the ring. -/
def deposit (set : Fin Config.setCount) (x : Sample) (s : State) : State :=
  let r := tget s.rst.sets set
  match r.mode with
  | .off => s
  | .latest => putSet set (addToLatest x r) s
  | .block =>
    if r.fill + 1 < 4 then putSet set (addToBlock x r) s
    else if s.admits then
      putSet set (afterBlock true r) (s.setRep (enqueue (.setBlock (blockReport set x r)) s.rep))
    else putSet set (afterBlock false r) s

/-- RST at RESET ENGINE: modes and widths are kept (R119). -/
def rstResetEngine (r : Rst) : Rst := { sets := tmap (fun x => emptySet x.mode x.width) r.sets }

end Sys2Proof.Machine
end

