-- ==== Sys2Proof/Machine/Health.lean ====
section
/-! DEFINITION. What the drop manager does with frame starts, items, probes and SERVICE flags
(spec/04_drop_management.md). -/

namespace Sys2Proof.Machine

/-- Readiness for entries and unforced ad hoc items: ONLINE or FAILING (R36, R74). -/
def DropState.ready : DropState → Bool
  | .online | .failing => true
  | .off | .seeking | .quarantined => false

/-- Whether a drop is ready. -/
def isReady (m : Drm) (d : Fin Config.dropCount) : Bool := (tget m.drops d).state.ready

/-- A frame has begun: due counters of QUARANTINED drops fall (R78). -/
def dropFrameBegun (r : DropRec) : DropRec :=
  if r.state = .quarantined then { r with due := r.due - 1 } else r

/-- The frame-begun notice (R34, R78). -/
def frameBegun (s : State) : State := s.setDrm { s.drm with drops := tmap dropFrameBegun s.drm.drops }

/-- A probe candidate: SEEKING, or QUARANTINED with due counter 0 (R79). -/
def isCandidate (r : DropRec) : Bool :=
  r.state == .seeking || (r.state == .quarantined && r.due == 0)

/-- The order of the search: from the cursor + 1 round to the cursor itself (R79). -/
def searchOrder (cursor : Fin Config.dropCount) : List (Fin Config.dropCount) :=
  (List.finRange Config.dropCount).map fun k => cursor + 1 + k

/-- The probe candidate the drop manager names (R79). -/
def candidate (m : Drm) : Option (Fin Config.dropCount) :=
  (searchOrder m.cursor).find? fun d => isCandidate (tget m.drops d)

/-- A probe has begun (R80). -/
def probeBegun (d : Fin Config.dropCount) (s : State) : State :=
  s.setDrm { s.drm with cursor := d, probe := some { drop := d, live := true } }

/-- A drop record after an item's outcome, and the event it raises (R76, R77). -/
def dropItem (success : Bool) (r : DropRec) : DropRec × Option DropChange :=
  if r.state.ready then
    if success then ({ r with state := .online, failures := 0 }, none)
    else
      let n := if r.state = .online then 1 else r.failures + 1
      let total := satAdd Config.limit16 r.total 1
      if n < r.threshold then ({ r with state := .failing, failures := n, due := 0, total := total }, none)
      else
        ({ r with state := .quarantined, failures := n, due := r.interval, total := total },
         some { left := r.state, entered := .quarantined, kind := .lost })
  else (r, none)

/-- A drop record changes and its event, if any, is offered (R86). -/
def applyDrop (d : Fin Config.dropCount) (out : DropRec × Option DropChange) (s : State) : State :=
  let s1 := s.setDrm { s.drm with drops := tput s.drm.drops d out.1 }
  match out.2 with
  | some c => offerDrop d c s1
  | none => s1

/-- Whether a result is a success for the drop's health (R76). -/
def AttemptResult.success : AttemptResult → Bool
  | .valid _ _ _ => true
  | .error _ => false

/-- The outcome of an entry's or ad hoc item reaches the drop manager (R76, R77). -/
def dropOutcome (d : Fin Config.dropCount) (success : Bool) (s : State) : State :=
  applyDrop d (dropItem success (tget s.drm.drops d)) s

/-- The kind code and point count of a probe answer (R53, R184). -/
def probeIdentity (values : List Word) : Identity :=
  { kind := lowByte (values.getD 0 0), points := (values.getD 1 0).toNat }

/-- The identity of a good probe, none for a failed one (R81). -/
def goodProbe : AttemptResult → Option Identity
  | .valid _ _ values =>
    let id := probeIdentity values
    if 1 ≤ id.points ∧ id.points ≤ 64 then some id else none
  | .error _ => none

/-- A drop record after a live probe's result (R82, R83, R84), and the event it raises. -/
def dropProbe (good : Option Identity) (r : DropRec) : DropRec × Option DropChange :=
  match r.state, good with
  | .seeking, some id =>
    ({ r with state := .online, failures := 0, due := 0, identity := some id },
     some { left := .seeking, entered := .online, kind := .arrived })
  | .quarantined, some id =>
    let kind := if r.identity.map Identity.kind = some id.kind then Transition.readmitted else .replaced
    ({ r with state := .online, failures := 0, due := 0, identity := some id },
     some { left := .quarantined, entered := .online, kind := kind })
  | .quarantined, none => ({ r with due := r.interval }, none)
  | _, _ => (r, none)

/-- The probe's outcome reaches the drop manager, which then empties the probe record (R81). -/
def probeOutcome (result : AttemptResult) (s : State) : State :=
  let s1 := s.setDrm { s.drm with probe := none }
  match s.drm.probe with
  | some p =>
    if p.live then applyDrop p.drop (dropProbe (goodProbe result) (tget s.drm.drops p.drop)) s1 else s1
  | none => s1

/-- The SERVICE flag of a valid answer reaches the drop manager (R61, R85). -/
def serviceHandover (d : Fin Config.dropCount) (flag : Bool) (s : State) : State :=
  let r := tget s.drm.drops d
  if flag ∧ r.service = false ∧ r.state ≠ .off then
    offerService d (s.setDrm { s.drm with drops := tput s.drm.drops d { r with service := true } })
  else s

/-- A drop record at RESET ENGINE (R91). -/
def dropResetEngine (r : DropRec) : DropRec :=
  if r.state = .off then r
  else { r with state := .seeking, failures := 0, due := 0, identity := none, service := false }

/-- DRM at RESET ENGINE (R91). -/
def drmResetEngine (m : Drm) : Drm :=
  { drops := tmap dropResetEngine m.drops, cursor := 23, probe := none }

end Sys2Proof.Machine
end

