-- ==== Sys2Proof/Machine/Walk.lean ====
section
/-! DEFINITION. The frame walk: judging items, starting attempts, retries and the recording of outcomes
(spec/02_frames_and_the_frame_engine.md, 2.5 to 2.7; spec/05, 5.3 and 5.4). -/

namespace Sys2Proof.Machine

/-! ### Starting an item -/

/-- The command of a transaction's request frame (R52). -/
def TransKind.command : TransKind → BusCommand
  | .read => .read | .write => .write | .exchange => .exchange

/-- The capture of a transaction with its output values (R65). -/
def captureOf (t : Transaction) (outputs : List Word) : Capture :=
  { cmd := t.kind.command, drop := t.drop, first := t.first, inCount := t.inCount, outCount := t.outCount,
    outputs := outputs }

/-- The capture of a probe (R53, R65). -/
def probeCapture (d : Fin Config.dropCount) : Capture :=
  { cmd := .probe, drop := d, first := 0, inCount := 2, outCount := 0, outputs := [] }

/-- W of a capture (R63). -/
def Capture.cost (c : Capture) : Nat := attemptCost c.inCount c.outCount

/-- An attempt begins from a capture: the request frame goes on the line (R51). -/
def btxAttempt (c : Capture) (x : Btx) : Btx :=
  { x with state := .request, dbde := true, capture := some c, rx := .empty, heard := [] }

/-- The first attempt of an item (R37, R38, R39). -/
def startItem (src : ItemSource) (retries : Nat) (c : Capture) (s : State) : State :=
  (s.setFen { s.fen with item := some { source := src, retries := retries, attempts := 1, lastError := none } }).setBtx
    (btxAttempt c s.btx)

/-! ### The ad hoc stage (R39, R98) -/

/-- An item of the queue ends NOT_READY: it leaves the queue and its ticket ends (R98, R101). -/
def adHocNotReady (h : AdHoc) (rest : List AdHoc) (s : State) : State :=
  offerTicketDone
    { ticket := h.ticket, outcome := .notReady, lastError := none, attempts := 0, frame := s.fen.frame,
      flags := none, values := [] }
    (s.setFen { s.fen with queue := rest })

/-- The heads of the queue are examined until the guard start (R35, R39), until one starts or waits; at the guard start
itself no more (log 13). -/
def serveAdHoc : List AdHoc → State → State
  | [], s => s
  | h :: rest, s =>
    if guardStarted s.fen then s
    else if !h.force && !isReady s.drm h.trans.drop then serveAdHoc rest (adHocNotReady h rest s)
    else if h.trans.cost ≤ remaining s.fen then
      startItem (.adHoc h.ticket true) h.trans.retries (captureOf h.trans h.outputs)
        (s.setFen { s.fen with queue := rest })
    else s

/-- The ad hoc stage begins or goes on. -/
def adHocStage (s : State) : State :=
  serveAdHoc s.fen.queue (s.setFen { s.fen with stage := .adHoc })

/-! ### The probe stage (R38) -/

/-- The probe stage: a candidate is probed if a probe fits; otherwise the ad hoc stage begins. -/
def probeStage (s0 : State) : State :=
  let s := s0.setFen { s0.fen with stage := .probe }
  match candidate s.drm with
  | some d =>
    if Config.probeCost ≤ remaining s.fen then startItem .probe 0 (probeCapture d) (probeBegun d s)
    else adHocStage s
  | none => adHocStage s

/-! ### The periodic stage (R37) -/

/-- The entry of a plan pair when its handle still matches (R3, R18). -/
def pairBody (m : Scm) (p : PlanPair) : Option EntryBody :=
  let e := tget m.entries p.index
  if e.gen = p.gen then e.body else none

/-- The state with an entry's contents replaced. -/
def putBody (i : Fin Config.entryCount) (b : EntryBody) (s : State) : State :=
  s.setScm { s.scm with entries := tput s.scm.entries i { tget s.scm.entries i with body := some b } }

/-- A NOT_READY outcome recorded in an entry (R37). -/
def bodyNotReady (b : EntryBody) : EntryBody :=
  { b with notReady := satAdd Config.limit16 b.notReady 1, last := .notReady }

/-- A SKIPPED outcome recorded in an entry (R41). -/
def bodySkipped (b : EntryBody) : EntryBody :=
  { b with skipped := satAdd Config.limit16 b.skipped 1, last := .skipped }

/-- The FRAME-EVENT of a frame with skips (R45). -/
def skipEvent (f : Fen) : FrameSummary :=
  { slot := f.slot, frame := f.frame, skipped := f.skipCount, jams := 0, frames := 1 }

/-- The FRAME-EVENT of skips is raised if there were any (R45). -/
def raiseSkips (s : State) : State :=
  if 0 < s.fen.skipCount then offerFrame (skipEvent s.fen) s else s

/-- The pairs of the plan from the position on are judged, until one starts; then the probe stage follows
(R35, R37). -/
def walkPeriodic : List PlanPair → State → State
  | [], s => probeStage (raiseSkips s)
  | p :: rest, s0 =>
    let s := s0.setFen { s0.fen with planPos := s0.fen.planPos + 1 }
    match pairBody s.scm p with
    | none => walkPeriodic rest s
    | some b =>
      if !isReady s.drm b.trans.drop then walkPeriodic rest (putBody p.index (bodyNotReady b) s)
      else if remaining s.fen < b.trans.cost then
        walkPeriodic rest
          (putBody p.index (bodySkipped b) (s.setFen { s.fen with skipCount := s.fen.skipCount + 1 }))
      else startItem (.periodic p) b.trans.retries (captureOf b.trans b.outputs) s

/-- The walk goes on in the stage it stands in, no item being in progress (R35). -/
def continueWalk (s : State) : State :=
  match s.fen.stage with
  | .idle => s
  | .beacon | .periodic =>
    walkPeriodic (s.fen.plan.drop s.fen.planPos) (s.setFen { s.fen with stage := .periodic })
  | .periodicEnded => probeStage s
  | .probe => adHocStage s
  | .adHoc => adHocStage s

/-! ### Stopping and going quiet -/

/-- The QUIET broadcast is handed over and the engine enters QUIET (R141, R142, R143). -/
def goQuiet (cause : EngineCause) (s0 : State) : State :=
  let s := handBroadcast .quiet s0
  enterEngine .quiet cause
    (s.setFen { s.fen with
      timer := none, plan := [], planPos := 0, stage := .idle, settling := 0, quietPending := false,
      startPending := false, watching := false, lowMeasure := 0 })

/-- The engine enters STOPPED: the walk is abandoned, its skips are raised if the periodic stage had not ended,
and the frame timer stops (R28, R45, R149). -/
def enterStopped (cause : EngineCause) (s0 : State) : State :=
  let s := if s0.fen.stage = .periodic then raiseSkips s0 else s0
  enterEngine .stopped cause
    (s.setFen { s.fen with
      timer := none, plan := [], planPos := 0, stage := .idle, settling := 0, startPending := false,
      judgeDue := false })

/-- A QUIET still waiting when the engine reaches STOPPED is carried out (R142). -/
def carryQuiet (cause : EngineCause) (s : State) : State :=
  if s.fen.quietPending then
    answerDeferred (fun r => r == .quiet) .ok [] (goQuiet cause s)
  else s

/-- The end of HALTING: STOPPED, the deferred HALT requests answered, a waiting QUIET carried out (R28, R142). -/
def haltingEnds (s : State) : State :=
  carryQuiet s.fen.haltCause
    (answerDeferred (fun r => r == .halt) .ok [] (enterStopped s.fen.haltCause s))

/-! ### The end of an item -/

/-- An entry's record after an outcome (R4, R19). -/
def bodyOutcome (r : AttemptResult) (b : EntryBody) : EntryBody :=
  match r with
  | .valid fault _ _ =>
    { b with done := satAdd Config.limit16 b.done 1, last := if fault then .dropFault else .ok }
  | .error e => { b with failed := satAdd Config.limit16 b.failed 1, last := .failed e }

/-- The deposit of a routed entry's valid answer, when the window lies within the values it carried (R19, R108). -/
def routeDeposit (p : PlanPair) (route : Route) (fault service : Bool) (values : List Word) (s : State) : State :=
  let width := (tget s.rst.sets route.set).width
  if route.offset + width ≤ values.length then
    deposit route.set
      { entry := p.index, frame := s.fen.frame, fault := fault, service := service,
        values := (values.drop route.offset).take width } s
  else s

/-- Hand-offs of a periodic item's outcome: entry, drop manager, result store (R19, R44). -/
def recordPeriodic (p : PlanPair) (d : Fin Config.dropCount) (r : AttemptResult) (s0 : State) : State :=
  match pairBody s0.scm p with
  | none => dropOutcome d r.success s0
  | some b =>
    let s := dropOutcome d r.success (putBody p.index (bodyOutcome r b) s0)
    match r, b.route with
    | .valid fault service values, some route => routeDeposit p route fault service values s
    | _, _ => s

/-- The TICKET-DONE of an item that started (R101). -/
def ticketReport (ticket : Word) (it : Item) (r : AttemptResult) (frame : Word) : TicketDone :=
  match r with
  | .valid fault service values =>
    { ticket := ticket, outcome := if fault then .dropFault else .ok, lastError := it.lastError,
      attempts := it.attempts, frame := frame, flags := some (fault, service), values := values }
  | .error e =>
    { ticket := ticket, outcome := .failed, lastError := some e, attempts := it.attempts, frame := frame,
      flags := none, values := [] }

/-- No item is in progress any more, and BTX discards the capture (R67). -/
def clearItem (s : State) : State :=
  (s.setFen { s.fen with item := none }).setBtx { s.btx with capture := none }

/-- Hand-offs of an ad hoc item's outcome: drop manager, then its ticket if it still has it (R44, R99, R106). -/
def recordAdHoc (ticket : Word) (mark : Bool) (it : Item) (d : Fin Config.dropCount) (r : AttemptResult)
    (s0 : State) : State :=
  let s := clearItem (dropOutcome d r.success s0)
  if mark then offerTicketDone (ticketReport ticket it r s.fen.frame) s else s

/-- The hand-offs of an ended item (R44). -/
def recordItem (it : Item) (d : Fin Config.dropCount) (r : AttemptResult) (s : State) : State :=
  match it.source with
  | .periodic p => clearItem (recordPeriodic p d r s)
  | .probe => clearItem (probeOutcome r s)
  | .adHoc ticket mark => recordAdHoc ticket mark it d r s

/-- The judgement of the next item, which was due (R35). -/
def judgeNext (s : State) : State := continueWalk (s.setFen { s.fen with judgeDue := false })

/-- The periodic stage ends with its last pair's item: the FRAME-EVENT of its skips is raised (R35, R45). -/
def endPeriodic (s0 : State) : State :=
  let s := raiseSkips s0
  s.setFen { s.fen with stage := .periodicEnded }

/-- An item has ended and the judgement that follows it is left due (log 17). -/
def leaveJudgement (s0 : State) : State :=
  let s := if s0.fen.stage = .periodic ∧ s0.fen.plan.length ≤ s0.fen.planPos then endPeriodic s0 else s0
  s.setFen { s.fen with judgeDue := true }

/-- After an item: HALTING ends, or the walk goes on, at once or when the judgement that is now due is made (R28, R35;
log 17). -/
def afterItem (held : Bool) (s : State) : State :=
  if s.fen.engine = .halting then haltingEnds s
  else if s.fen.engine = .running then
    if held then leaveJudgement s else continueWalk s
  else s

/-- An attempt of an item has ended with a result: retry or end of the item (R38, R42). -/
def attemptEnded (it : Item) (c : Capture) (r : AttemptResult) (held : Bool) (s : State) : State :=
  match r with
  | .valid _ _ _ => afterItem held (recordItem it c.drop r s)
  | .error e =>
    if it.attempts < it.retries + 1 ∧ c.cost ≤ remaining s.fen then
      (s.setFen { s.fen with item := some { it with attempts := it.attempts + 1, lastError := some e } }).setBtx
        (btxAttempt c s.btx)
    else afterItem held (recordItem it c.drop r s)

/-! ### Frame start (R32, R33) -/

/-- The slot of frame n: n mod L (R6). -/
def slotOf (n : Word) (len : Nat) : Fin Config.slotCount := Fin.ofNat Config.slotCount (n.toNat % len)

/-- A copy of a chain with the generations its entries hold (R18). -/
def planOf (m : Scm) (slot : Fin Config.slotCount) : List PlanPair :=
  (tget m.chains slot).map fun i => { index := i, gen := (tget m.entries i).gen }

/-- The FRAME-EVENT of a jammed frame start (R33, R45). -/
def jamEvent (f : Fen) : FrameSummary := { slot := f.slot, frame := f.frame, skipped := 0, jams := 1, frames := 1 }

/-- A jammed frame start (R33): no beacon, no plan; the third in a row stops the engine. -/
def jammedStart (s0 : State) : State :=
  let s := s0.setFen { s0.fen with
    jamCount := s0.fen.jamCount + 1, plan := [], planPos := 0, stage := .idle }
  let s1 := offerFrame (jamEvent s.fen) s
  if 3 ≤ s1.fen.jamCount then enterStopped .jam s1 else s1

/-- A clean frame start (R32, step 4). -/
def cleanStart (s0 : State) : State :=
  let s := s0.setFen { s0.fen with
    jamCount := 0, plan := planOf s0.scm s0.fen.slot, planPos := 0, stage := .beacon }
  handBroadcast (.beacon false s.fen.frame) s

/-- One frame start at a period boundary (R32), on the line as the jam record has it (R69). -/
def frameStart (s0 : State) : State :=
  let n := s0.fen.frame + 1
  let s := s0.setFen { s0.fen with
    frame := n, slot := slotOf n s0.scm.schedLen, skipCount := 0, timer := some 0, startPending := false }
  frameBegun (if s.btx.jammed s.fen.config.rate then jammedStart s else cleanStart s)

/-- The quiet boundary (R141): the waiting QUIET requests are answered. -/
def quietBoundary (s : State) : State :=
  answerDeferred (fun r => r == .quiet) .ok [] (goQuiet .host s)

/-! ### Waking (R147) -/

/-- The frame engine enters WAKING. The frame timer starts as the RESUME begins on the line. -/
def enterWaking (cause : EngineCause) (s0 : State) : State :=
  let begins := s0.btx.state == .idle
  let s := handBroadcast .resume s0
  enterEngine .waking cause
    (s.setFen { s.fen with
      jamCount := 0, settling := s.fen.config.settling, watching := false, lowMeasure := 0,
      timer := if begins then some 0 else none })

/-! ### The link-loss claim (R31) -/

/-- The halt claim at the frame engine, which acts as a HALT with cause LINK-LOSS and no reply. FEN takes
nothing while a RESET ENGINE sends its RESUME (R150; log 12). -/
def haltClaim (s : State) : State :=
  if s.fen.resetPending then s
  else
    match s.fen.engine with
    | .running =>
      if s.fen.item.isSome then
        enterEngine .halting .linkLoss (s.setFen { s.fen with haltCause := .linkLoss })
      else carryQuiet .linkLoss (enterStopped .linkLoss s)
    | .halting => s.setFen { s.fen with haltCause := .linkLoss }
    | .waking => enterStopped .linkLoss s
    | .stopped | .quiet => s

/-! ### RESET ENGINE (R47, R104, R150) -/

/-- The TICKET-DONE ABORTED of the in-flight item, if it has a ticket (R101, R104). -/
def abortInFlight (s : State) : State :=
  match s.fen.item with
  | some { source := .adHoc ticket true, attempts, lastError, .. } =>
    offerTicketDone
      { ticket := ticket, outcome := .aborted, lastError := lastError, attempts := attempts,
        frame := s.fen.frame, flags := none, values := [] }
      (s.setFen { s.fen with item := none })
  | _ => s.setFen { s.fen with item := none }

/-- The TICKET-DONE ABORTED of the queued items, head to tail (R104). -/
def abortQueue : List AdHoc → State → State
  | [], s => s
  | h :: rest, s =>
    abortQueue rest
      (offerTicketDone
        { ticket := h.ticket, outcome := .aborted, lastError := none, attempts := 0, frame := s.fen.frame,
          flags := none, values := [] }
        (s.setFen { s.fen with queue := rest }))

/-- FEN's values after RESET ENGINE: configuration and ticket counter kept (R47). -/
def fenResetEngine (f : Fen) : Fen := { Fen.initial with config := f.config, ticket := f.ticket, engine := f.engine }

/-- The reset completes (R47, R150): tickets aborted, deferred requests ABORTED, STOPPED, counters 0. -/
def completeReset (s0 : State) : State :=
  let s := answerDeferred isEngineDeferred .aborted [] (abortQueue s0.fen.queue (abortInFlight s0))
  let s1 := if s.fen.engine = .stopped then s else enterEngine .stopped .reset s
  s1.setFen (fenResetEngine s1.fen)

/-- The reply data of a RESET: scope, engine state STOPPED, frame counter 0, tickets removed (R177, R178). -/
def resetData (scope : Byte) (tickets : Nat) : List Byte := [scope, 0, 0, 0, byteOf tickets]

/-! ### After a broadcast (R54) -/

/-- What goes on when BTX has become IDLE after a broadcast: a waiting broadcast, the completion of a
RESET ENGINE, the watch of the wake monitor, a START that waited, or the walk (R27, R35, R51, R145, R147, R150). Waiting
broadcasts go first, in the order handed over (log 23), so that a START that waited has its first boundary after the gap
of the last of them (the model's choice, log 33); with the quiet-pending mark that is a quiet boundary (log 24). -/
def afterBroadcast (ended : Broadcast) (s : State) : State :=
  match s.btx.waiting with
  | b :: rest =>
    let s1 := s.setBtx (btxBegin b { s.btx with waiting := rest })
    if b.what = .resume ∧ rest = [] ∧ s.fen.engine = .waking ∧ s.fen.resetPending = false then
      s1.setFen { s1.fen with timer := some 0 }
    else s1
  | [] =>
    if s.fen.resetPending then
      answerDeferred (fun r => r == .reset) .ok (resetData 0 0) (completeReset s)
    else
      match s.fen.engine, ended with
      | .quiet, .quiet => s.setFen { s.fen with watching := true, lowMeasure := 0 }
      | .running, _ =>
        if s.fen.startPending then
          if s.fen.quietPending then quietBoundary s else frameStart s
        else if s.fen.stage = .beacon then continueWalk s
        else s
      | _, _ => s

end Sys2Proof.Machine
end

