-- ==== Sys2Proof/Machine/Boundary.lean ====
section
/-! DEFINITION. Period boundaries and the wake pulse: FRAME_START, QUIET_BOUNDARY, SETTLING_BOUNDARY, WAKE_PULSE
(R32, R141, R145, R148). A boundary that cannot fall in the present state changes nothing (log 2). -/

namespace Sys2Proof.Machine

/-- A period boundary can fall: the frame timer runs, the bus is free, and no judgement is due (R25, R39, R40). -/
def boundaryFalls (s : State) : Bool :=
  s.fen.timer.isSome && s.fen.item.isNone && s.btx.state == .idle && s.btx.waiting.isEmpty && !s.fen.judgeDue

/-- FRAME_START (R32), in RUNNING and with no quiet-pending mark. -/
def execFrameStart (line : List Level) (s : State) : Host.Outcome State Fault Refusal :=
  if boundaryFalls s ∧ s.fen.engine = .running ∧ s.fen.quietPending = false then
    .next (frameStart (hearAll line s))
  else .next s

/-- QUIET_BOUNDARY (R141), in RUNNING with the quiet-pending mark. -/
def execQuietBoundary (s : State) : Host.Outcome State Fault Refusal :=
  if boundaryFalls s ∧ s.fen.engine = .running ∧ s.fen.quietPending then .next (quietBoundary s) else .next s

/-- The end of settling (R148): RUNNING, the WAKE requests answered, and the boundary is a frame start. -/
def endSettling (line : List Level) (s : State) : State :=
  frameStart (hearAll line
    (answerDeferred (fun r => r == .wake) .ok [] (enterEngine .running .settled s)))

/-- A settling beacon (R148): the held frame counter value with the SETTLING flag (R55). -/
def settlingBeacon (line : List Level) (s0 : State) : State :=
  let s := hearAll line s0
  handBroadcast (.beacon true s.fen.frame)
    (s.setFen { s.fen with settling := s.fen.settling - 1, timer := some 0 })

/-- SETTLING_BOUNDARY (R148), in WAKING. -/
def execSettlingBoundary (line : List Level) (s : State) : Host.Outcome State Fault Refusal :=
  if boundaryFalls s ∧ s.fen.engine = .waking then
    if 0 < s.fen.settling then .next (settlingBeacon line s) else .next (endSettling line s)
  else .next s

/-- One tick in the wake monitor's filter: how long the line has been low without a break (R145). -/
def measureTick (m : Nat) (l : Level) : Nat := if l = .low then m + 1 else 0

/-- How many ticks of the line pass until a wake pulse is recognised, if it is: a low of 16 whole bit-times, `m`
ticks of it measured before (R145). -/
def pulseAt : Nat → List Level → Option Nat
  | _, [] => none
  | m, l :: rest =>
    if Config.wakeLow ≤ measureTick m l / Config.ticks then some 1
    else (pulseAt (measureTick m l) rest).map (· + 1)

/-- WAKE_PULSE (R145): the monitor watches the line; at a recognised pulse the engine wakes (R147). -/
def execWakePulse (line : List Level) (s : State) : Host.Outcome State Fault Refusal :=
  let seen := s.btx.lineWith line
  if s.fen.engine = .quiet ∧ s.fen.watching then
    match pulseAt s.fen.lowMeasure seen with
    | some k => .next (enterWaking .wakePulse (s.setBtx (btxHear s.busRate k (seen.take k) s.btx)))
    | none =>
      .next ((s.setBtx (btxHear s.busRate seen.length seen s.btx)).setFen
        { s.fen with lowMeasure := seen.foldl measureTick s.fen.lowMeasure })
  else .next s

end Sys2Proof.Machine
end

