-- ==== Sys2Proof/Machine/Bus.lean ====
section
/-! DEFINITION. The drop-bus line: BROADCAST_FRAME_END, BROADCAST_GAP_END, REQUEST_FRAME_END, ANSWER_START_BIT,
ANSWER_DEADLINE, ANSWER_END, ATTEMPT_END (R50, R51, R54, R58 to R62). Each passes the bus time its part takes; one
that cannot come about in the present transactor state changes nothing (log 2). -/

namespace Sys2Proof.Machine

/-- BROADCAST_FRAME_END (R54): DBDE is released and the gap begins. -/
def execBroadcastFrameEnd (s : State) : Host.Outcome State Fault Refusal :=
  match s.btx.state with
  | .broadcast b =>
    .next (drive (Config.ticks * Config.broadcastTime)
      (s.setBtx { s.btx with state := .gap (.broadcast b), dbde := false }))
  | .idle | .request | .wait | .answer | .gap _ => .next s

/-- BTX is IDLE after a broadcast sent at a rate: the line goes on at the rate in force (R56; log 6). -/
def gapEnds (rate : BusRate) (s : State) : State :=
  s.setBtx { s.btx with state := .idle, heard := reTick rate s.fen.config.rate s.btx.heard }

/-- BROADCAST_GAP_END (R51, R54): BTX is IDLE, and what waited for that goes on. -/
def execBroadcastGapEnd (line : List Level) (s : State) : Host.Outcome State Fault Refusal :=
  match s.btx.state with
  | .gap (.broadcast b) =>
    .next (afterBroadcast b.what (gapEnds b.rate (hear (Config.ticks * Config.gapTime) line s)))
  | .idle | .request | .wait | .answer | .broadcast _ | .gap (.attempt _) => .next s

/-- REQUEST_FRAME_END (R58): DBDE is released and the answer deadline runs. -/
def execRequestFrameEnd (s : State) : Host.Outcome State Fault Refusal :=
  match s.btx.state, s.btx.capture with
  | .request, some c =>
    .next (drive (Config.ticks * requestTime c.outCount)
      (s.setBtx { s.btx with state := .wait, dbde := false, rx := .empty }))
  | _, _ => .next s

/-! ### The receiver: start bits (R49, R58) -/

/-- A fall at the head of the line is a start bit: the line is low from it to the middle of that bit-time, at which
the third tick begins (R49; log 7). -/
def startsBit (line : List Level) : Bool := ticksOf 3 line == [.low, .low, .low]

/-- The ticks until the first start bit begins, the level before the line being `prev`; lows that are too short are
disregarded (R49). -/
def startBit : Level → List Level → Option Nat
  | _, [] => none
  | prev, l :: rest =>
    if prev = .high ∧ startsBit (l :: rest) then some 0 else (startBit l rest).map (· + 1)

/-- The start of an answer, in ticks from the end of the request, when a start bit begins by the deadline. A line low
at the end of the request counts as having fallen then (R58). -/
def answerStart (line : List Level) : Option Nat :=
  match startBit .high line with
  | some n => if n ≤ Config.ticks * Config.answerDeadline then some n else none
  | none => none

/-- ANSWER_START_BIT (R58): the answer's start is the moment its start bit began. -/
def execAnswerStartBit (line : List Level) (s : State) : Host.Outcome State Fault Refusal :=
  match s.btx.state, answerStart (s.btx.lineWith line) with
  | .wait, some n =>
    .next (hear n line (s.setBtx { s.btx with state := .answer, rx := { Receiver.empty with startAt := some n } }))
  | _, _ => .next s

/-- ANSWER_DEADLINE (R58): with no start bit by the deadline the outcome is NO_ANSWER, and the gap begins. -/
def execAnswerDeadline (line : List Level) (s : State) : Host.Outcome State Fault Refusal :=
  match s.btx.state, answerStart (s.btx.lineWith line) with
  | .wait, none =>
    .next (hear (Config.ticks * Config.answerDeadline) line
      (s.setBtx { s.btx with state := .gap (.attempt (.error .noAnswer)) }))
  | _, _ => .next s

/-! ### The receiver: the bytes of an answer (R49, R58) -/

/-- What the receiver is doing. -/
inductive Listening where
  /-- A byte: the ticks since its start bit began, and the levels sampled at the middles of its bit-times. -/
  | byte (age : Nat) (samples : List Level)
  /-- Between bytes: the ticks of idle since the last stop bit, and of a low that is no start bit yet. -/
  | idle (ticks low : Nat)
  /-- The line has been low since the end of a stop bit: neither idle nor a fall. -/
  | held
  deriving DecidableEq, Repr

/-- An answer being taken in: the ticks since its start, what the receiver is doing, the complete bytes with their
framing errors, and the end of the last one's stop bit. -/
structure Hearing where
  now       : Nat
  listening : Listening
  bytes     : List (Byte × Bool)
  lastEnd   : Nat
  deriving DecidableEq, Repr

/-- The answer's start: its first start bit begins. -/
def Hearing.start : Hearing := { now := 0, listening := .byte 0 [], bytes := [], lastEnd := 0 }

/-- A byte from the levels sampled in it: start bit, data bits least significant first, stop bit; with its framing
error, a stop bit sampled low (R49). -/
def sampledByte (samples : List Level) : Byte × Bool :=
  (((samples.drop 1).take 8).foldr (fun l b => (b <<< 1) ||| (if l = .high then 1 else 0)) 0,
   samples.getD 9 .high == .low)

/-- One tick of a byte: its levels are sampled where the second half of a bit-time begins, and the stop bit ends after
ten bit-times (R49). -/
def hearByte (age : Nat) (samples : List Level) (l : Level) (h : Hearing) : Hearing :=
  let got := if age % Config.ticks = Config.ticks / 2 then samples ++ [l] else samples
  if age + 1 < Config.ticks * 10 then { h with now := h.now + 1, listening := .byte (age + 1) got }
  else
    { now := h.now + 1, listening := if l = .high then .idle 0 0 else .held,
      bytes := h.bytes ++ [sampledByte got], lastEnd := h.now + 1 }

/-- One tick between bytes: a third low tick after a fall makes a start bit that began with the first; a shorter low is
disregarded (R49). -/
def hearIdle (ticks low : Nat) (l : Level) (h : Hearing) : Hearing :=
  { h with
    now := h.now + 1,
    listening :=
      if l = .high then .idle (ticks + low + 1) 0
      else if low = Config.ticks / 2 then .byte (Config.ticks / 2 + 1) [.low]
      else .idle ticks (low + 1) }

/-- One tick of the line goes into the receiver. -/
def hearTick (l : Level) (h : Hearing) : Hearing :=
  match h.listening with
  | .byte age samples => hearByte age samples l h
  | .idle ticks low => hearIdle ticks low l h
  | .held => { h with now := h.now + 1, listening := if l = .high then .idle 1 0 else .held }

/-- Whether the line has been idle for 2 bit-times after a stop bit (R58). -/
def Hearing.idleEnded (h : Hearing) : Bool :=
  match h.listening with
  | .idle ticks _ => decide (Config.ticks * Config.idleEnd ≤ ticks)
  | .byte _ _ | .held => false

/-- Whether a byte has begun and its stop bit has not ended (R58). -/
def Hearing.inByte (h : Hearing) : Bool :=
  match h.listening with
  | .byte _ _ => true
  | .idle _ _ | .held => false

/-- An answer taken in: its complete bytes with their framing errors, whether it overran, and its end in ticks from
its start (R58). -/
structure Taken where
  bytes   : List (Byte × Bool)
  overran : Bool
  endAt   : Nat
  deriving DecidableEq, Repr

/-- The answer ends at the idle end or at the limit, whichever comes first (R58). When both fall at one moment the idle
end is taken, even where the line is low from that moment on (the model's choice, log 28). The end is that of the last stop bit
also where a low after it puts the idle end, or the limit, later than the 8 bit-times of the gap (the model's choice,
log 32). -/
def hearAnswer (limit : Nat) : List Level → Hearing → Taken
  | [], h => { bytes := h.bytes, overran := h.inByte, endAt := if h.inByte then limit else h.lastEnd }
  | l :: rest, h =>
    if h.idleEnded then { bytes := h.bytes, overran := false, endAt := h.lastEnd }
    else if limit ≤ h.now then
      if l = .low ∨ h.inByte then { bytes := h.bytes, overran := true, endAt := limit }
      else { bytes := h.bytes, overran := false, endAt := h.lastEnd }
    else hearAnswer limit rest (hearTick l h)

/-- An answer to a request for `i` values, taken from its start on (R58): the line to the tick that begins at the answer
limit. -/
def takeAnswer (i : Nat) (line : List Level) : Taken :=
  let limit := Config.ticks * answerLimit i
  hearAnswer limit (ticksOf (limit + 1) line) .start

/-! ### The judgement (R59 to R61) -/

/-- The judgement of an answer to a capture, tests 2 to 10 (R59, R60). -/
def judgeAnswer (c : Capture) (t : Taken) : AttemptResult :=
  let bytes := t.bytes.map Prod.fst
  let n := bytes.length - 2
  let nin := (bytes.getD 2 0).toNat
  if t.overran then .error .badLength
  else if t.bytes.length < 5 then .error .badLength
  else if t.bytes.any Prod.snd then .error .badCheck
  else if busCheck (bytes.take n) ≠ wordFrom (bytes.getD n 0) (bytes.getD (n + 1) 0) then .error .badCheck
  else if bytes.getD 0 0 ≠ dropByte c.drop then .error .wrongDrop
  else if bytes.length ≠ 5 + 2 * nin then .error .badLength
  else if nin ≠ c.inCount then .error .badLength
  else
    .valid (faultFlag (bytes.getD 1 0)) (serviceFlag (bytes.getD 1 0)) (busValues ((bytes.take n).drop 3))

/-- The SERVICE flag of a valid answer goes to the drop manager; an answer not valid hands none over (R61). -/
def handService (d : Fin Config.dropCount) (r : AttemptResult) (s : State) : State :=
  match r with
  | .valid _ service _ => serviceHandover d service s
  | .error _ => s

/-- ANSWER_END (R58, R59, R61): the answer is judged, its SERVICE flag handed over, and the gap begins, which runs from
the answer's end however late that end was known (log 32). -/
def execAnswerEnd (line : List Level) (s : State) : Host.Outcome State Fault Refusal :=
  match s.btx.state, s.btx.capture with
  | .answer, some c =>
    let t := takeAnswer c.inCount (s.btx.lineWith line)
    let r := judgeAnswer c t
    .next (handService c.drop r (hear t.endAt line
      (s.setBtx { s.btx with
        state := .gap (.attempt r),
        rx := { s.btx.rx with bytes := t.bytes.map Prod.fst, endAt := some t.endAt } })))
  | _, _ => .next s

/-- ATTEMPT_END (R62): BTX is IDLE and reports the outcome; the frame engine retries or ends the item, and judges the
next one. With `held` it leaves that to a further ATTEMPT_END, and what is taken between the two comes after the end of
the item and before the judgement (R28, R31; log 17). -/
def execAttemptEnd (line : List Level) (held : Bool) (s : State) : Host.Outcome State Fault Refusal :=
  match s.btx.state, s.fen.item, s.btx.capture with
  | .gap (.attempt r), some it, some c =>
    .next (attemptEnded it c r held
      (hear (Config.ticks * Config.gapTime) line (s.setBtx { s.btx with state := .idle })))
  | .idle, none, _ => if s.fen.judgeDue ∧ held = false then .next (judgeNext s) else .next s
  | _, _, _ => .next s

end Sys2Proof.Machine
end

