-- ==== Sys2Proof/Machine/Drops.lean ====
section
/-! DEFINITION. The requests of the drop manager: DROP_ATTACH, DROP_DETACH, DROP_READ, DROP_CLEAR_SERVICE
(R87 to R90). -/

namespace Sys2Proof.Machine

/-- The state with a drop record replaced. -/
def putDrop (d : Fin Config.dropCount) (r : DropRec) (s : State) : State :=
  s.setDrm { s.drm with drops := tput s.drm.drops d r }

/-- DRM takes a DROP-ATTACH (R87). -/
def takeDropAttach (tag drop threshold interval : Byte) (s : State) : State :=
  match dropOf drop with
  | none => reply tag .outOfRange [] s
  | some d =>
    if (tget s.drm.drops d).state ≠ .off then reply tag .already [] s
    else if 1 ≤ threshold.toNat ∧ threshold.toNat ≤ 15 ∧ 1 ≤ interval.toNat then
      reply tag .ok []
        (putDrop d
          { DropRec.initial with
            state := .seeking, threshold := threshold.toNat, interval := interval.toNat } s)
    else reply tag .outOfRange [] s

/-- DROP_ATTACH. -/
def execDropAttach (tag drop threshold interval : Byte) (s : State) : Host.Outcome State Fault Refusal :=
  takeRequest .dropAttach tag [drop, threshold, interval] (takeDropAttach tag drop threshold interval) s

/-- A probe of a detached drop is void (R80, R88). -/
def voidProbe (d : Fin Config.dropCount) (p : ProbeRec) : ProbeRec :=
  if p.drop = d then { p with live := false } else p

/-- DRM takes a DROP-DETACH (R88). -/
def takeDropDetach (tag drop : Byte) (s : State) : State :=
  match dropOf drop with
  | none => reply tag .outOfRange [] s
  | some d =>
    reply tag .ok [(tget s.drm.drops d).state.code]
      (s.setDrm { s.drm with drops := tput s.drm.drops d .initial, probe := s.drm.probe.map (voidProbe d) })

/-- DROP_DETACH. -/
def execDropDetach (tag drop : Byte) (s : State) : Host.Outcome State Fault Refusal :=
  takeRequest .dropDetach tag [drop] (takeDropDetach tag drop) s

/-- The data of a DROP-READ reply (R89, 10.4). -/
def dropData (d : Fin Config.dropCount) (m : Drm) : List Byte :=
  let r := tget m.drops d
  [dropByte d, r.state.code, byteOf r.threshold, byteOf r.interval, byteOf r.failures, byteOf r.due]
  ++ (match r.identity with
      | some id => [1, id.kind, byteOf id.points]
      | none => [0, 0, 0])
  ++ [flagByte r.service] ++ linkWord (wordOf r.total) ++ [dropByte m.cursor]

/-- DRM takes a DROP-READ (R89). -/
def takeDropRead (tag drop : Byte) (s : State) : State :=
  match dropOf drop with
  | none => reply tag .outOfRange [] s
  | some d => reply tag .ok (dropData d s.drm) s

/-- DROP_READ. -/
def execDropRead (tag drop : Byte) (s : State) : Host.Outcome State Fault Refusal :=
  takeRequest .dropRead tag [drop] (takeDropRead tag drop) s

/-- DRM takes a DROP-CLEAR-SERVICE (R90). -/
def takeDropClearService (tag drop : Byte) (s : State) : State :=
  match dropOf drop with
  | none => reply tag .outOfRange [] s
  | some d =>
    let r := tget s.drm.drops d
    reply tag .ok [flagByte r.service] (putDrop d { r with service := false } s)

/-- DROP_CLEAR_SERVICE. -/
def execDropClearService (tag drop : Byte) (s : State) : Host.Outcome State Fault Refusal :=
  takeRequest .dropClearService tag [drop] (takeDropClearService tag drop) s

end Sys2Proof.Machine
end

