-- ==== Sys2Proof/Machine/Engine.lean ====
section
/-! DEFINITION. The requests that govern the frame engine: BUS_CONFIG, START, HALT, QUIET, WAKE (R24, R27 to R29,
R140 to R146, R149). -/

namespace Sys2Proof.Machine

/-! ### BUS_CONFIG (R24) -/

/-- The configuration a BUS-CONFIG gives, when its values are in range and its B can hold a probe (R24). -/
def parseConfig (rate period guard settling : Byte) : Option BusConfig :=
  match rateOf rate with
  | some r =>
    let c : BusConfig := { rate := r, period := period.toNat, guard := guard.toNat, settling := settling.toNat }
    if 4 ≤ period.toNat ∧ period.toNat ≤ 64 ∧ 1 ≤ settling.toNat ∧ Config.probeCost ≤ c.budget then some c
    else none
  | none => none

/-- A new configuration is in force; what was heard beyond the last bus command is kept in ticks of the rate that the
bus now has (log 6). -/
def withConfig (c : BusConfig) (s0 : State) : State :=
  let s := s0.setFen { s0.fen with config := c }
  s.setBtx { s.btx with heard := reTick s0.busRate s.busRate s.btx.heard }

/-- FEN takes a BUS-CONFIG (R24). -/
def takeBusConfig (tag rate period guard settling : Byte) (s : State) : State :=
  if s.fen.engine ≠ .stopped then reply tag .wrongState [] s
  else
    match parseConfig rate period guard settling with
    | none => reply tag .outOfRange [] s
    | some c =>
      if s.fen.queue.any fun h => decide (c.budget < h.trans.cost) then reply tag .conflict [] s
      else
        reply tag .ok (linkWord (wordOf c.frameLen) ++ linkWord (wordOf c.budget)) (withConfig c s)

/-- BUS_CONFIG. -/
def execBusConfig (tag rate period guard settling : Byte) (s : State) : Host.Outcome State Fault Refusal :=
  takeRequest .busConfig tag [rate, period, guard, settling] (takeBusConfig tag rate period guard settling) s

/-! ### START (R27) -/

/-- FEN takes a START: the first frame start follows at once, or when a broadcast still on the line has ended
with its gap (R27), and any that waits behind it with its own (the model's choice, log 33). -/
def takeStart (tag : Byte) (line : List Level) (s : State) : State :=
  match s.fen.engine with
  | .stopped =>
    let s1 := reply tag .ok [] (enterEngine .running .host (s.setFen { s.fen with jamCount := 0 }))
    if s.btx.state = .idle then frameStart (hearAll line s1)
    else s1.setFen { s1.fen with startPending := true }
  | .running => reply tag .already [] s
  | .halting | .quiet | .waking => reply tag .wrongState [] s

/-- START. -/
def execStart (tag : Byte) (line : List Level) (s : State) : Host.Outcome State Fault Refusal :=
  takeRequest .start tag [] (takeStart tag line) s

/-! ### HALT (R28, R29, R149) -/

/-- FEN takes a HALT. In WAKING a RESUME that waits for the line is left to be sent (the model's choice, log 33). -/
def takeHalt (tag : Byte) (s : State) : State :=
  match s.fen.engine with
  | .running =>
    if s.fen.item.isSome then
      deferReply tag (enterEngine .halting .host (s.setFen { s.fen with haltCause := .host }))
    else carryQuiet .host (reply tag .ok [] (enterStopped .host s))
  | .halting => deferReply tag s
  | .waking =>
    reply tag .ok [] (answerDeferred (fun r => r == .wake) .aborted [] (enterStopped .host s))
  | .stopped => reply tag .ok [] s
  | .quiet => reply tag .wrongState [] s

/-- HALT. -/
def execHalt (tag : Byte) (s : State) : Host.Outcome State Fault Refusal :=
  takeRequest .halt tag [] (takeHalt tag) s

/-! ### QUIET (R140, R142, R143) -/

/-- FEN takes a QUIET. -/
def takeQuiet (tag : Byte) (s : State) : State :=
  match s.fen.engine with
  | .running => deferReply tag (s.setFen { s.fen with quietPending := true })
  | .stopped => reply tag .ok [] (goQuiet .host s)
  | .waking =>
    reply tag .ok [] (answerDeferred (fun r => r == .wake) .aborted [] (goQuiet .host s))
  | .halting => reply tag .wrongState [] s
  | .quiet => reply tag .already [] s

/-- QUIET. -/
def execQuiet (tag : Byte) (s : State) : Host.Outcome State Fault Refusal :=
  takeRequest .quiet tag [] (takeQuiet tag) s

/-! ### WAKE (R146) -/

/-- FEN takes a WAKE. -/
def takeWake (tag : Byte) (s : State) : State :=
  match s.fen.engine with
  | .quiet => deferReply tag (enterWaking .host s)
  | .waking => deferReply tag s
  | .stopped | .running | .halting => reply tag .wrongState [] s

/-- WAKE. -/
def execWake (tag : Byte) (s : State) : Host.Outcome State Fault Refusal :=
  takeRequest .wake tag [] (takeWake tag) s

end Sys2Proof.Machine
end

