-- ==== Sys2Proof/Machine/Receive.lean ====
section
/-! DEFINITION. Power-on and the characters of the host link: POWER_ON, LINK_CHARACTER_RECEIVED,
LINK_FRAME_COMPLETE, LINK_FRAME_ABANDON, LINK_IDLE_GAP_EXPIRY, LINK_BREAK (R152 to R155, R179). -/

namespace Sys2Proof.Machine

/-- The link rate the straps give, true for high (R152). -/
def strapRate (lr1 lr0 : Bool) : LinkRate :=
  match lr1, lr0 with
  | false, false => .b115200
  | false, true => .b230400
  | true, false => .b460800
  | true, true => .b921600

/-- POWER_ON: every block takes its power-on values and the straps are sampled (R20, R46, R72, R91, R117, R137,
R151, R179). -/
def execPowerOn (lr1 lr0 : Bool) (s : State) : Host.Outcome State Fault Refusal :=
  .next { State.reset with link := { Link.initial with rate := strapRate lr1 lr0 }, pending := s.pending }

/-- A bad frame is counted (R155). -/
def countBad (l : Link) : Link := { l with badFrames := satAdd Config.limit16 l.badFrames 1 }

/-- A frame being collected is abandoned (R154). -/
def abandonFrame (l : Link) : Link := countBad { l with receiver := .hunting }

/-- A complete frame is judged: its check is compared, and a frame that passes is taken (R155).
`bytes` are LEN, KIND, TAG, the payload and the two CHECK bytes, low byte first. -/
def judgeFrame (bytes : List Byte) (l : Link) : Link :=
  let n := bytes.length - 2
  let covered := bytes.take n
  let check := wordFrom (bytes.getD (n + 1) 0) (bytes.getD n 0)
  if linkCheck covered = check then
    takeFrame { kind := bytes.getD 1 0, tag := bytes.getD 2 0, payload := covered.drop 3, check := check } l
  else countBad l

/-- Whether `bytes`, LEN first, are all the characters of a frame (R153). -/
def isComplete (bytes : List Byte) : Bool :=
  match bytes with
  | len :: _ => bytes.length == len.toNat + 5
  | [] => false

/-- Whether a character abandons the frame being collected (R154). -/
def abandons (bytes : List Byte) (b : Byte) (framing : Bool) : Bool :=
  framing || (bytes.isEmpty && decide (Config.payloadLimit < b.toNat))

/-- A character arrives (R153, R154, R155). -/
def receive (b : Byte) (framing : Bool) (l0 : Link) : Link :=
  let l := { l0 with breakHold := false }
  match l.receiver with
  | .hunting => if !framing && b == 0xC3 then { l with receiver := .collecting [] } else l
  | .collecting bytes =>
    if abandons bytes b framing then abandonFrame l
    else if isComplete (bytes ++ [b]) then judgeFrame (bytes ++ [b]) { l with receiver := .hunting }
    else { l with receiver := .collecting (bytes ++ [b]) }

/-- LINK_CHARACTER_RECEIVED (R153): a character that completes or abandons the frame does so. -/
def execLinkCharacterReceived (b : Byte) (framing : Bool) (s : State) : Host.Outcome State Fault Refusal :=
  .next (s.setLink (receive b framing s.link))

/-- LINK_FRAME_COMPLETE (R155): the second CHECK byte, when it is the character awaited. -/
def execLinkFrameComplete (b : Byte) (s : State) : Host.Outcome State Fault Refusal :=
  match s.link.receiver with
  | .collecting bytes =>
    if abandons bytes b false = false ∧ isComplete (bytes ++ [b]) then
      .next (s.setLink (judgeFrame (bytes ++ [b]) { s.link with receiver := .hunting, breakHold := false }))
    else .next s
  | .hunting => .next s

/-- LINK_FRAME_ABANDON (R154): a LEN above 240 or a character with a framing error, while collecting. -/
def execLinkFrameAbandon (b : Byte) (framing : Bool) (s : State) : Host.Outcome State Fault Refusal :=
  match s.link.receiver with
  | .collecting bytes =>
    if abandons bytes b framing then .next (s.setLink (abandonFrame { s.link with breakHold := false }))
    else .next s
  | .hunting => .next s

/-- LINK_IDLE_GAP_EXPIRY (R154): an idle line while hunting abandons nothing. -/
def execLinkIdleGapExpiry (s : State) : Host.Outcome State Fault Refusal :=
  match s.link.receiver with
  | .collecting _ => .next (s.setLink (abandonFrame s.link))
  | .hunting => .next s

/-- LINK_BREAK (R154): a frame being collected is abandoned; the receiver waits for the line to return high. -/
def execLinkBreak (s : State) : Host.Outcome State Fault Refusal :=
  match s.link.receiver with
  | .collecting _ => .next (s.setLink { abandonFrame s.link with breakHold := true })
  | .hunting => .next (s.setLink { s.link with breakHold := true })

end Sys2Proof.Machine
end

