-- ==== Sys2Proof/Machine/Schedule.lean ====
section
/-! DEFINITION. The requests of the schedule memory: ENTRY_ADD, ENTRY_SET, ENTRY_LOAD, ENTRY_READ, ENTRY_FREE,
CHAIN_INSERT, CHAIN_REMOVE, CHAIN_READ, SCHEDULE_LENGTH (R7 to R17). -/

namespace Sys2Proof.Machine

/-- The state with an entry replaced. -/
def putEntry (i : Fin Config.entryCount) (e : Entry) (s : State) : State :=
  s.setScm { s.scm with entries := tput s.scm.entries i e }

/-- The state with a chain replaced. -/
def putChain (k : Fin Config.slotCount) (c : List (Fin Config.entryCount)) (s : State) : State :=
  s.setScm { s.scm with chains := tput s.scm.chains k c }

/-- A handle's entry when the handle is current (R3). -/
def currentBody (m : Scm) (i : Fin Config.entryCount) (gen : Byte) : Option EntryBody :=
  if (tget m.entries i).gen = gen then (tget m.entries i).body else none

/-- Whether a route's window lies within `i` input values (R8); no route always does. -/
def routeFits (rst : Rst) (i : Nat) : Option Route → Bool
  | some r => decide (r.offset + (tget rst.sets r.set).width ≤ i)
  | none => true

/-- The lowest-numbered FREE index (R9). -/
def freeIndex (m : Scm) : Option (Fin Config.entryCount) :=
  (List.finRange Config.entryCount).find? fun i => (tget m.entries i).body.isNone

/-- The contents of a new entry (R9). -/
def freshBody (t : Transaction) (route : Option Route) : EntryBody :=
  { trans := t, route := route, outputs := List.replicate t.outCount 0, done := 0, failed := 0, skipped := 0,
    notReady := 0, last := .never, linkCount := 0 }

/-- SCM takes an ENTRY-ADD (R9). -/
def takeEntryAdd (tag : Byte) (p : ParamBlock) (s : State) : State :=
  match parseParams p with
  | none => reply tag .outOfRange [] s
  | some (t, route) =>
    if routeFits s.rst t.inCount route then
      match freeIndex s.scm with
      | none => reply tag .noSpace [] s
      | some i =>
        let gen := (tget s.scm.entries i).gen
        reply tag .ok [byteOf i.val, gen] (putEntry i { gen := gen, body := some (freshBody t route) } s)
    else reply tag .conflict [] s

/-- ENTRY_ADD. -/
def execEntryAdd (tag : Byte) (p : ParamBlock) (s : State) : Host.Outcome State Fault Refusal :=
  takeRequest .entryAdd tag (paramBytes p) (takeEntryAdd tag p) s

/-- The output list resized to `o`, new positions 0 (R10). -/
def resizeOutputs (o : Nat) (outputs : List Word) : List Word :=
  outputs.take o ++ List.replicate (o - outputs.length) 0

/-- The contents of an entry after ENTRY-SET (R10). -/
def setBody (t : Transaction) (route : Option Route) (b : EntryBody) : EntryBody :=
  { freshBody t route with outputs := resizeOutputs t.outCount b.outputs, linkCount := b.linkCount }

/-- SCM takes an ENTRY-SET (R10). -/
def takeEntrySet (tag index gen : Byte) (p : ParamBlock) (s : State) : State :=
  match indexOf Config.entryCount index with
  | none => reply tag .outOfRange [] s
  | some i =>
    match currentBody s.scm i gen with
    | none => reply tag .stale [] s
    | some b =>
      match parseParams p with
      | none => reply tag .outOfRange [] s
      | some (t, route) =>
        if routeFits s.rst t.inCount route then
          reply tag .ok [index, gen] (putEntry i { gen := gen, body := some (setBody t route b) } s)
        else reply tag .conflict [] s

/-- ENTRY_SET. -/
def execEntrySet (tag index gen : Byte) (p : ParamBlock) (s : State) : Host.Outcome State Fault Refusal :=
  takeRequest .entrySet tag (index :: gen :: paramBytes p) (takeEntrySet tag index gen p) s

/-- The output list with values written from an offset on (R11). -/
def loadOutputs (offset : Nat) (values outputs : List Word) : List Word :=
  outputs.take offset ++ values ++ outputs.drop (offset + values.length)

/-- SCM takes an ENTRY-LOAD (R11). -/
def takeEntryLoad (tag index gen offset : Byte) (values : List Word) (s : State) : State :=
  match indexOf Config.entryCount index with
  | none => reply tag .outOfRange [] s
  | some i =>
    match currentBody s.scm i gen with
    | none => reply tag .stale [] s
    | some b =>
      if offset.toNat + values.length ≤ b.trans.outCount then
        reply tag .ok []
          (putEntry i { gen := gen, body := some { b with outputs := loadOutputs offset.toNat values b.outputs } } s)
      else reply tag .outOfRange [] s

/-- ENTRY_LOAD. -/
def execEntryLoad (tag index gen offset : Byte) (values : List Word) (s : State) :
    Host.Outcome State Fault Refusal :=
  takeRequest .entryLoad tag ([index, gen, offset] ++ values.flatMap linkWord)
    (takeEntryLoad tag index gen offset values) s

/-- The data of an ENTRY-READ reply (R12, 10.4). -/
def entryData (index : Byte) (e : Entry) : List Byte :=
  match e.body with
  | none => [index, 0, e.gen]
  | some b =>
    [index, 1, e.gen] ++ entryParamBytes b ++ linkWord (wordOf b.trans.cost)
    ++ linkWord (wordOf b.done) ++ linkWord (wordOf b.failed) ++ linkWord (wordOf b.skipped)
    ++ linkWord (wordOf b.notReady) ++ [b.last.code, errorCode b.last.error, byteOf b.linkCount]
    ++ b.outputs.flatMap linkWord

/-- SCM takes an ENTRY-READ (R12). -/
def takeEntryRead (tag index : Byte) (s : State) : State :=
  match indexOf Config.entryCount index with
  | none => reply tag .outOfRange [] s
  | some i => reply tag .ok (entryData index (tget s.scm.entries i)) s

/-- ENTRY_READ. -/
def execEntryRead (tag index : Byte) (s : State) : Host.Outcome State Fault Refusal :=
  takeRequest .entryRead tag [index] (takeEntryRead tag index) s

/-- SCM takes an ENTRY-FREE (R13). -/
def takeEntryFree (tag index gen : Byte) (s : State) : State :=
  match indexOf Config.entryCount index with
  | none => reply tag .outOfRange [] s
  | some i =>
    match currentBody s.scm i gen with
    | none => reply tag .stale [] s
    | some b =>
      if 0 < b.linkCount then reply tag .inUse [] s
      else reply tag .ok [index, gen + 1] (putEntry i { gen := gen + 1, body := none } s)

/-- ENTRY_FREE. -/
def execEntryFree (tag index gen : Byte) (s : State) : Host.Outcome State Fault Refusal :=
  takeRequest .entryFree tag [index, gen] (takeEntryFree tag index gen) s

/-- The chain with an index placed at a position (R14). -/
def insertAt (pos : Nat) (i : Fin Config.entryCount) (c : List (Fin Config.entryCount)) :
    List (Fin Config.entryCount) :=
  c.take pos ++ i :: c.drop pos

/-- SCM takes a CHAIN-INSERT (R14). -/
def takeChainInsert (tag slot position index gen : Byte) (s : State) : State :=
  match indexOf Config.slotCount slot, indexOf Config.entryCount index with
  | some k, some i =>
    let c := tget s.scm.chains k
    match currentBody s.scm i gen with
    | none => reply tag .stale [] s
    | some b =>
      if c.length < position.toNat then reply tag .outOfRange [] s
      else if c.contains i then reply tag .alreadyLinked [] s
      else if Config.chainLimit ≤ c.length then reply tag .chainFull [] s
      else
        reply tag .ok [byteOf (c.length + 1)]
          (putChain k (insertAt position.toNat i c)
            (putEntry i { gen := gen, body := some { b with linkCount := b.linkCount + 1 } } s))
  | _, _ => reply tag .outOfRange [] s

/-- CHAIN_INSERT. -/
def execChainInsert (tag slot position index gen : Byte) (s : State) : Host.Outcome State Fault Refusal :=
  takeRequest .chainInsert tag [slot, position, index, gen] (takeChainInsert tag slot position index gen) s

/-- The link count of an entry falls by one (R15). -/
def unlinkEntry (i : Fin Config.entryCount) (s : State) : State :=
  let e := tget s.scm.entries i
  putEntry i { e with body := e.body.map fun b => { b with linkCount := b.linkCount - 1 } } s

/-- SCM takes a CHAIN-REMOVE (R15). -/
def takeChainRemove (tag slot index : Byte) (s : State) : State :=
  match indexOf Config.slotCount slot, indexOf Config.entryCount index with
  | some k, some i =>
    let c := tget s.scm.chains k
    if c.contains i then
      reply tag .ok [byteOf (c.length - 1)] (putChain k (c.erase i) (unlinkEntry i s))
    else reply tag .notLinked [] s
  | _, _ => reply tag .outOfRange [] s

/-- CHAIN_REMOVE. -/
def execChainRemove (tag slot index : Byte) (s : State) : Host.Outcome State Fault Refusal :=
  takeRequest .chainRemove tag [slot, index] (takeChainRemove tag slot index) s

/-- SCM takes a CHAIN-READ (R16). -/
def takeChainRead (tag slot : Byte) (s : State) : State :=
  match indexOf Config.slotCount slot with
  | none => reply tag .outOfRange [] s
  | some k =>
    let c := tget s.scm.chains k
    reply tag .ok ([slot, byteOf c.length] ++ c.map fun i => byteOf i.val) s

/-- CHAIN_READ. -/
def execChainRead (tag slot : Byte) (s : State) : Host.Outcome State Fault Refusal :=
  takeRequest .chainRead tag [slot] (takeChainRead tag slot) s

/-- SCM takes a SCHEDULE-LENGTH (R17). -/
def takeScheduleLength (tag len : Byte) (s : State) : State :=
  if isSchedLen len.toNat then reply tag .ok [len] (s.setScm { s.scm with schedLen := len.toNat })
  else reply tag .outOfRange [] s

/-- SCHEDULE_LENGTH. -/
def execScheduleLength (tag len : Byte) (s : State) : Host.Outcome State Fault Refusal :=
  takeRequest .scheduleLength tag [len] (takeScheduleLength tag len) s

end Sys2Proof.Machine
end

