-- ==== Sys2Proof/Machine/Session.lean ====
section
/-! DEFINITION. The requests of the link unit and the end of a session: OPEN, CLOSE, IDENTIFY, STATUS,
ACK_REPORTS, RESET_ENGINE, RESET_ALL (R164 to R178). -/

namespace Sys2Proof.Machine

/-! ### OPEN (R171) -/

/-- The resend timeout in force: 0 selects 5 (R171). -/
def resendInForce (b : Byte) : Nat := if b = 0 then 5 else b.toNat

/-- The parameters of an OPEN are in range (R171). -/
def openInRange (window resendTime silenceTime : Byte) : Bool :=
  decide (1 ≤ window.toNat) && decide (window.toNat ≤ 8) && decide (resendTime.toNat ≤ 25)
    && decide (1 ≤ silenceTime.toNat) && decide (silenceTime.toNat ≤ 50)

/-- LNK when OPEN is accepted (R171). -/
def linkOpen (window resendTime silenceTime : Byte) (action : LinkLoss) (l : Link) : Link :=
  { l with
    session :=
      { state := .opened, window := window.toNat, resendTime := resendInForce resendTime,
        silenceTime := silenceTime.toNat, action := action, silence := some (100 * silenceTime.toNat),
        endCause := l.session.endCause },
    badFrames := 0, send := .cleared }

/-- The data of an OPEN reply (10.4). -/
def openData (s : State) : List Byte :=
  [byteOf s.link.session.window, byteOf s.link.session.resendTime, byteOf s.link.session.silenceTime,
   s.link.session.action.code, s.link.session.endCause.code, s.fen.engine.code] ++ linkWord s.fen.frame

/-- LNK takes an OPEN (R171; R139 for REP). -/
def takeOpen (tag window resendTime silenceTime action : Byte) (s : State) : State :=
  if s.link.session.isOpen then reply tag .alreadyOpen [] s
  else
    match openInRange window resendTime silenceTime, actionOf action with
    | true, some a =>
      let s1 := (s.setLink (linkOpen window resendTime silenceTime a s.link)).setRep { s.rep with nextSeq := 0 }
      let s2 := (offerLatches (latchOrder true false false false) s1).1
      reply tag .ok (openData s2) s2
    | _, _ => reply tag .outOfRange [] s

/-- OPEN. -/
def execOpen (tag window resendTime silenceTime action : Byte) (s : State) : Host.Outcome State Fault Refusal :=
  takeRequest .open_ tag [window, resendTime, silenceTime, action]
    (takeOpen tag window resendTime silenceTime action) s

/-! ### CLOSE and the session end (R172, R173) -/

/-- LNK takes a CLOSE: the session becomes closing and the reply is ready (R172). -/
def takeClose (tag : Byte) (s : State) : State :=
  reply tag .ok []
    (if s.link.session.isOpen then
      s.setLink { s.link with session := { s.link.session with state := .closing } }
    else s)

/-- CLOSE. -/
def execClose (tag : Byte) (s : State) : Host.Outcome State Fault Refusal :=
  takeRequest .close tag [] (takeClose tag) s

/-- Whether a reply answers no abandoned request (R173): it belongs to the short-reply list, or its request is
among those kept. -/
def replyKept (kept : List Place) (r : OutReply) : Bool :=
  r.origin != .request || kept.any fun p => p.tag == r.tag

/-- A frame on LTX at the session end is sent to its end; a report frame counts for nothing, and the reply
frame of an abandoned request answers none (R163, R173; log 9). -/
def ltxAtEnd (kept : List Place) (x : Ltx) : Ltx :=
  match x with
  | .idle => .idle
  | .reply r => if replyKept kept r then .reply r else .reply { r with origin := .abandoned }
  | .report q _ => .report q false

/-- LNK's part of a session end, steps 1 to 4 (R173). -/
def linkEnd (cause : EndCause) (l : Link) : Link :=
  let kept := l.places.filter fun p => !p.inOpen
  { l with
    session := { l.session with state := .closed, silence := none, endCause := cause },
    places := kept, outbox := l.outbox.filter (replyKept kept), memory := [],
    ltx := ltxAtEnd kept l.ltx, send := .cleared }

/-- REP at session end: the queue emptied, the classes MASKED, the latches kept (R139). -/
def repEnd (p : Rep) : Rep :=
  { p with queue := [], maskDrop := .masked, maskService := .masked, maskFrame := .masked }

/-- The in-flight item loses its ticket (R106). -/
def clearMark (it : Item) : Item :=
  match it.source with
  | .adHoc ticket _ => { it with source := .adHoc ticket false }
  | .periodic _ | .probe => it

/-- FEN at session end: every ticket is removed without a report (R106). -/
def fenEnd (f : Fen) : Fen := { f with queue := [], item := f.item.map clearMark }

/-- A session ends (R173): LNK, REP, FEN, then the halt claim if the action is HALT. -/
def sessionEnd (cause : EndCause) (s : State) : State :=
  let s1 := ((s.setLink (linkEnd cause s.link)).setRep (repEnd s.rep)).setFen (fenEnd s.fen)
  if s.link.session.action = .halt then haltClaim s1 else s1

/-! ### IDENTIFY (R174) -/

/-- The data of an IDENTIFY reply (10.4). -/
def identifyData (s : State) : List Byte :=
  linkWord 0x4C24 ++ [1, s.link.rate.code, 24, 128, 32, 32, 16, 16, 32, 4, 8]

/-- LNK takes an IDENTIFY. -/
def takeIdentify (tag : Byte) (s : State) : State := reply tag .ok (identifyData s) s

/-- IDENTIFY. -/
def execIdentify (tag : Byte) (s : State) : Host.Outcome State Fault Refusal :=
  takeRequest .identify tag [] (takeIdentify tag) s

/-! ### STATUS (R175) -/

/-- The oldest unacknowledged sequence (R164). -/
def oldestSeq (p : Rep) : Byte :=
  match p.queue with
  | q :: _ => q.seq
  | [] => p.nextSeq

/-- The data of a STATUS reply (10.4). -/
def statusData (s : State) : List Byte :=
  [s.fen.engine.code] ++ linkWord s.fen.frame
  ++ [byteOf s.fen.queue.length, byteOf (ticketCount s.fen),
      s.link.session.state.code, byteOf s.link.session.window, byteOf s.link.session.resendTime,
      byteOf s.link.session.silenceTime, s.link.session.action.code, s.link.session.endCause.code,
      s.link.send.path.code, oldestSeq s.rep, byteOf s.link.send.unacked]
  ++ linkWord (wordOf s.link.badFrames)
  ++ [byteOf s.rep.queue.length, s.rep.nextSeq, s.rep.maskDrop.code, s.rep.maskService.code,
      s.rep.maskFrame.code, flagByte s.rep.engineLatch.isSome]
  ++ latchBytes (fun d => (tget s.rep.dropLatches d).isSome)
  ++ latchBytes (fun d => tget s.rep.serviceLatches d)
  ++ [flagByte s.rep.frameLatch.isSome]

/-- LNK takes a STATUS. -/
def takeStatus (tag : Byte) (s : State) : State := reply tag .ok (statusData s) s

/-- STATUS. -/
def execStatus (tag : Byte) (s : State) : Host.Outcome State Fault Refusal :=
  takeRequest .status tag [] (takeStatus tag) s

/-! ### ACK_REPORTS (R166, R167) -/

/-- The resend timer loaded with T_r (R168). -/
def resendLoad (l : Link) : Option Nat := some (10 * l.session.resendTime)

/-- The resend timer runs exactly while u is above 0 and the path is SENDING (R168). -/
def resendTimer (u : Nat) (l : Link) : Option Nat := if 0 < u then resendLoad l else none

/-- A report frame on the line counts no more when the send position has been set back or the report removed
(R165; log 10). -/
def ltxCounts (still : Bool) (x : Ltx) : Ltx :=
  match x with
  | .report q counts => .report q (counts && still)
  | .idle => .idle
  | .reply r => .reply r

/-- LNK when `k` reports are acknowledged (R166). -/
def linkAck (k : Nat) (l : Link) : Link :=
  let u := l.send.unacked - k
  let stalled := l.send.path == .stalled
  { l with
    send :=
      { unacked := u, position := if stalled then 0 else l.send.position - k, resends := 0,
        timer := resendTimer u l, path := .sending },
    ltx := ltxCounts (!stalled && decide (k ≤ l.send.position)) l.ltx }

/-- LNK on a repeat acknowledgement (R167). The resend timer is reloaded at once when u is above 0, and not first as the
resent frames end (the model's choice, log 30). -/
def linkRepeat (l : Link) : Link :=
  { l with
    send := { l.send with position := 0, resends := 0, timer := resendTimer l.send.unacked l, path := .sending },
    ltx := ltxCounts false l.ltx }

/-- The latches of an offering on an acknowledgement: the engine latch and the UNMASKED classes (R134). -/
def ackOffer (p : Rep) : List LatchId :=
  latchOrder true (p.maskDrop == .unmasked) (p.maskService == .unmasked) (p.maskFrame == .unmasked)

/-- The data of an ACK-REPORTS reply (10.4). -/
def ackData (k : Nat) (s : State) : List Byte := [byteOf k, oldestSeq s.rep, s.link.send.path.code]

/-- LNK takes an ACK-REPORTS. -/
def takeAckReports (tag seq : Byte) (s : State) : State :=
  let d := (seq - oldestSeq s.rep).toNat
  if d < s.link.send.unacked then
    let k := d + 1
    let s1 := (s.setLink (linkAck k s.link)).setRep { s.rep with queue := s.rep.queue.drop k }
    let s2 := (offerLatches (ackOffer s1.rep) s1).1
    reply tag .ok (ackData k s2) s2
  else if seq = oldestSeq s.rep - 1 then
    let s1 := s.setLink (linkRepeat s.link)
    reply tag .ok (ackData 0 s1) s1
  else reply tag .badAck [] s

/-- ACK_REPORTS. -/
def execAckReports (tag seq : Byte) (s : State) : Host.Outcome State Fault Refusal :=
  takeRequest .ackReports tag [seq] (takeAckReports tag seq) s

/-! ### RESET (R176 to R178) -/

/-- BTX up to an abandonment at RESET ENGINE (R68, R71): the line goes into the jam record, and the part of a request
frame that was sent counts as idle. The time of a broadcast on the line is counted at its end. -/
def btxUntilReset (rate : BusRate) (line : List Level) (x : Btx) : Btx :=
  match x.state with
  | .request => btxDrive rate line.length x
  | .idle | .wait | .answer | .gap (.attempt _) => btxHear rate (x.lineWith line).length (x.lineWith line) x
  | .broadcast _ | .gap (.broadcast _) => x

/-- LNK takes a RESET of scope ENGINE (R177): in QUIET and WAKING a RESUME goes first, directly after the broadcast on
the line, and the reply waits (R150): broadcasts that have not begun are withdrawn (log 23). Otherwise the reset is
performed at once. DRM and RST take their values when it is taken (log 11). -/
def resetEngineNow (tag : Byte) (line : List Level) (s0 : State) : State :=
  let s := (s0.setDrm (drmResetEngine s0.drm)).setRst (rstResetEngine s0.rst)
  if s.fen.engine = .quiet ∨ s.fen.engine = .waking then
    let s1 := s.setFen { s.fen with
      watching := false, lowMeasure := 0, timer := none, settling := 0, resetPending := true }
    deferReply tag (handBroadcast .resume (s1.setBtx { s1.btx with waiting := [] }))
  else
    reply tag .ok (resetData 0 0) (completeReset (s.setBtx (btxAbandon (btxUntilReset s.busRate line s.btx))))

/-- LNK takes a RESET whose scope is not ALL: ENGINE is performed, any other is out of range (R176). It is performed in
a session that an earlier CLOSE has meanwhile made closing, too (the model's choice, log 29). -/
def takeResetEngine (tag scope : Byte) (line : List Level) (s : State) : State :=
  if scope = 0 then resetEngineNow tag line s else reply tag .outOfRange [] s

/-- RESET_ENGINE; a RESET of scope ALL is RESET_ALL's, which this command leaves waiting. -/
def execResetEngine (tag scope : Byte) (line : List Level) (s : State) : Host.Outcome State Fault Refusal :=
  takeRequest .reset tag [scope] (fun t => if scope = 1 then t else takeResetEngine tag scope line t) s

/-- An entry at RESET ALL (R20). -/
def entryResetAll (e : Entry) : Entry :=
  match e.body with
  | some _ => { gen := e.gen + 1, body := none }
  | none => e

/-- SCM at RESET ALL (R20). -/
def scmResetAll (m : Scm) : Scm := { Scm.initial with entries := tmap entryResetAll m.entries }

/-- LNK at RESET ALL (R178): the session stays open with its parameters. -/
def linkResetAll (l : Link) : Link :=
  { l with memory := [], badFrames := 0, send := .cleared, ltx := ltxCounts false l.ltx }

/-- Every block at RESET ALL (R20, R46, R72, R91, R118, R137, R151, R178). -/
def resetAllBlocks (s : State) : State :=
  { link := linkResetAll s.link, scm := scmResetAll s.scm, fen := .initial, btx := .initial, drm := .initial,
    rst := .initial, rep := .initial, pending := s.pending }

/-- LNK takes a RESET of scope ALL: the ABORTED replies precede the RESET reply (R178). It is performed in a session
that an earlier CLOSE has meanwhile made closing, too (the model's choice, log 29). -/
def takeResetAll (tag : Byte) (s : State) : State :=
  reply tag .ok (resetData 1 (ticketCount s.fen))
    (answerDeferred (fun _ => true) .aborted [] (resetAllBlocks s))

/-- RESET_ALL. -/
def execResetAll (tag : Byte) (s : State) : Host.Outcome State Fault Refusal :=
  takeRequest .reset tag [1] (takeResetAll tag) s

end Sys2Proof.Machine
end

