-- ==== Sys2Proof/Machine/Sets.lean ====
section
/-! DEFINITION. The requests of the result store and of the report unit: SET_CONFIG, SET_READ, EVENT_MASK (R114,
R116, R135). -/

namespace Sys2Proof.Machine

/-- Whether an entry routes to a set with a window that a new width would take beyond its in count (R114). -/
def strands (set : Fin Config.setCount) (width : Nat) (e : Entry) : Bool :=
  match e.body with
  | some b =>
    match b.route with
    | some r => r.set == set && decide (b.trans.inCount < r.offset + width)
    | none => false
  | none => false

/-- RST takes a SET-CONFIG (R114). -/
def takeSetConfig (tag set mode width : Byte) (s : State) : State :=
  match indexOf Config.setCount set, modeOf mode with
  | some k, some m =>
    if 1 ≤ width.toNat ∧ width.toNat ≤ 8 then
      if s.scm.entries.toArray.toList.any (strands k width.toNat) then reply tag .conflict [] s
      else
        reply tag .ok [byteOf (setSamples (tget s.rst.sets k)).length] (putSet k (emptySet m width.toNat) s)
    else reply tag .outOfRange [] s
  | _, _ => reply tag .outOfRange [] s

/-- SET_CONFIG. -/
def execSetConfig (tag set mode width : Byte) (s : State) : Host.Outcome State Fault Refusal :=
  takeRequest .setConfig tag [set, mode, width] (takeSetConfig tag set mode width) s

/-- The data of a SET-READ reply (R116, 10.4). -/
def setData (set : Byte) (r : SetRec) : List Byte :=
  [set, r.mode.code, byteOf r.width] ++ linkWord r.block
  ++ [byteOf r.lost, byteOf (setSamples r).length] ++ (setSamples r).flatMap sampleBytes

/-- RST takes a SET-READ (R116). -/
def takeSetRead (tag set : Byte) (s : State) : State :=
  match indexOf Config.setCount set with
  | none => reply tag .outOfRange [] s
  | some k => reply tag .ok (setData set (tget s.rst.sets k)) s

/-- SET_READ. -/
def execSetRead (tag set : Byte) (s : State) : Host.Outcome State Fault Refusal :=
  takeRequest .setRead tag [set] (takeSetRead tag set) s

/-- Whether a class goes from MASKED to UNMASKED (R135). -/
def unmasks (old new : Mask) : Bool := old == .masked && new == .unmasked

/-- REP takes an EVENT-MASK: all masks at once, then one offering of the classes it unmasked (R135). -/
def takeEventMask (tag dropMask serviceMask frameMask : Byte) (s : State) : State :=
  match maskOf dropMask, maskOf serviceMask, maskOf frameMask with
  | some d, some v, some f =>
    let s1 := s.setRep { s.rep with maskDrop := d, maskService := v, maskFrame := f }
    let out := offerLatches
      (latchOrder false (unmasks s.rep.maskDrop d) (unmasks s.rep.maskService v) (unmasks s.rep.maskFrame f)) s1
    reply tag .ok [dropMask, serviceMask, frameMask, byteOf out.2] out.1
  | _, _, _ => reply tag .outOfRange [] s

/-- EVENT_MASK. -/
def execEventMask (tag dropMask serviceMask frameMask : Byte) (s : State) : Host.Outcome State Fault Refusal :=
  takeRequest .eventMask tag [dropMask, serviceMask, frameMask]
    (takeEventMask tag dropMask serviceMask frameMask) s

end Sys2Proof.Machine
end

