-- ==== Sys2Proof/Machine/Tickets.lean ====
section
/-! DEFINITION. Ad hoc transactions: SUBMIT and CANCEL (R93, R94, R97, R102). -/

namespace Sys2Proof.Machine

/-- Whether an outstanding ticket holds a number (R93). -/
def holdsTicket (f : Fen) (n : Word) : Bool :=
  f.queue.any (fun h => h.ticket == n) ||
    match f.item with
    | some { source := .adHoc ticket true, .. } => ticket == n
    | _ => false

/-- The number the next ticket gets: the first after the counter that no outstanding ticket holds (R93).
At most 16 tickets are outstanding, so one of 17 numbers is free. -/
def nextTicket (f : Fen) : Word :=
  (((List.range 17).map fun k => f.ticket + wordOf (k + 1)).find? fun n => !holdsTicket f n).getD (f.ticket + 1)

/-- The idle tail of the ad hoc stage: RUNNING, no item in progress, no judgement due (R39). -/
def idleTail (f : Fen) : Bool := f.engine == .running && f.stage == .adHoc && f.item.isNone && !f.judgeDue

/-- In the idle tail the line passes and the head is examined (R39). -/
def examineAfter (line : List Level) (s : State) : State :=
  if idleTail s.fen then adHocStage (hearAll line s) else s

/-- The item a SUBMIT offers, when its fields are in range (R94, step 1). -/
def parseSubmit (kind drop first inCount outCount retries force : Byte) : Option (Transaction × Bool) :=
  match parseTransaction kind drop first inCount outCount retries, flagOfByte force with
  | some t, some f => some (t, f)
  | _, _ => none

/-- FEN takes a SUBMIT (R94); an item submitted to an empty queue in the idle tail is examined at once (R39). -/
def takeSubmit (tag kind drop first inCount outCount retries force : Byte) (values : List Word)
    (line : List Level) (s : State) : State :=
  match parseSubmit kind drop first inCount outCount retries force with
  | none => reply tag .outOfRange [] s
  | some (t, f) =>
    if s.fen.config.budget < t.cost then reply tag .tooLarge [] s
    else if Config.ticketLimit ≤ ticketCount s.fen
        ∨ Config.reportPlaces ≤ s.rep.queue.length + ticketCount s.fen then
      reply tag .queueFull [] s
    else
      let n := nextTicket s.fen
      let h : AdHoc := { ticket := n, trans := t, outputs := values, force := f }
      let s1 := reply tag .accepted (linkWord n)
        (s.setFen { s.fen with queue := s.fen.queue ++ [h], ticket := n })
      if s.fen.queue.isEmpty then examineAfter line s1 else s1

/-- SUBMIT. -/
def execSubmit (tag kind drop first inCount outCount retries force : Byte) (values : List Word)
    (line : List Level) (s : State) : Host.Outcome State Fault Refusal :=
  takeRequest .submit tag (submitBytes kind drop first inCount outCount retries force values)
    (takeSubmit tag kind drop first inCount outCount retries force values line) s

/-- FEN takes a CANCEL (R102); when it takes the head away in the idle tail, the new head is examined (R39). -/
def takeCancel (tag : Byte) (ticket : Word) (line : List Level) (s : State) : State :=
  if s.fen.queue.any fun h => h.ticket == ticket then
    let wasHead := (s.fen.queue.head?.map AdHoc.ticket) == some ticket
    let s1 := reply tag .cancelled []
      (s.setFen { s.fen with queue := s.fen.queue.filter fun h => h.ticket != ticket })
    if wasHead then examineAfter line s1 else s1
  else if holdsTicket s.fen ticket then reply tag .inFlight [] s
  else reply tag .notFound [] s

/-- CANCEL. -/
def execCancel (tag : Byte) (ticket : Word) (line : List Level) (s : State) : Host.Outcome State Fault Refusal :=
  takeRequest .cancel tag (linkWord ticket) (takeCancel tag ticket line) s

end Sys2Proof.Machine
end

