-- ==== Sys2Proof/Machine/Transmit.lean ====
section
/-! DEFINITION. LTX and the link timers: TX_FRAME_START, REPLY_SENT, REPORT_FRAME_SENT, RESEND_TIMEOUT,
SILENCE_TIMEOUT (R162, R163, R165, R168, R170, R172). -/

namespace Sys2Proof.Machine

/-- The report that may be started, if one may (R165). -/
def reportToSend (l : Link) (p : Rep) : Option Queued :=
  if l.session.state = .opened ∧ l.send.path = .sending
      ∧ (l.send.position < l.send.unacked
        ∨ (l.send.position = l.send.unacked ∧ l.send.unacked < l.session.window)) then
    p.queue[l.send.position]?
  else none

/-- A report frame begins: a first sending raises u (R165), and the resend timer runs from then on (R168;
log 19). -/
def linkSendReport (q : Queued) (l : Link) : Link :=
  let u := if l.send.position = l.send.unacked then l.send.unacked + 1 else l.send.unacked
  { l with
    ltx := .report q true,
    send := { l.send with unacked := u, timer := if l.send.timer.isSome then l.send.timer else resendLoad l } }

/-- TX_FRAME_START (R163): the reply that became ready first, or else a report that may be sent. -/
def execTxFrameStart (s : State) : Host.Outcome State Fault Refusal :=
  if s.link.ltx = .idle then
    match s.link.outbox with
    | r :: rest => .next (s.setLink { s.link with ltx := .reply r, outbox := rest })
    | [] =>
      match reportToSend s.link s.rep with
      | some q => .next (s.setLink (linkSendReport q s.link))
      | none => .next s
  else .next s

/-- A request's reply has been sent: its place is free and the reply enters reply memory (R157, R162). -/
def linkSent (r : OutReply) (l : Link) : Link :=
  { l with
    ltx := .idle,
    places := l.places.filter fun p => p.tag != r.tag,
    memory := (r :: l.memory).take Config.memoryPlaces }

/-- Whether a reply is that of the CLOSE that made the session closing (R172). -/
def endsSession (r : OutReply) (l : Link) : Bool :=
  l.session.state == .closing && r.kind == replyKind Request.close.code && r.payload == [Status.ok.code]

/-- REPLY_SENT (R162, R172): the CLOSE reply ends the session. -/
def execReplySent (s : State) : Host.Outcome State Fault Refusal :=
  match s.link.ltx with
  | .reply r =>
    match r.origin with
    | .request =>
      let s1 := s.setLink (linkSent r s.link)
      if endsSession r s.link then .next (sessionEnd .close s1) else .next s1
    | .short | .abandoned => .next (s.setLink { s.link with ltx := .idle })
  | .idle | .report _ _ => .next s

/-- REPORT_FRAME_SENT (R165): the send position advances and the resend timer restarts. -/
def execReportFrameSent (s : State) : Host.Outcome State Fault Refusal :=
  match s.link.ltx with
  | .report _ counts =>
    .next (s.setLink
      { s.link with
        ltx := .idle,
        send :=
          { s.link.send with
            position := if counts then s.link.send.position + 1 else s.link.send.position,
            timer :=
              if s.link.send.path = .sending then resendTimer s.link.send.unacked s.link
              else s.link.send.timer } })
  | .idle | .reply _ => .next s

/-- LNK when the resend timer expires (R168). With the count now 1 or 2 and u above 0 it is reloaded at the expiry itself
and again as each resent frame ends, so that a second expiry can come before one has begun (the model's choice,
log 30). -/
def linkResend (l : Link) : Link :=
  let n := l.send.resends + 1
  if n < 3 then
    { l with
      send := { l.send with position := 0, resends := n, timer := resendTimer l.send.unacked l },
      ltx := ltxCounts false l.ltx }
  else { l with send := { l.send with resends := n, timer := none, path := .stalled } }

/-- RESEND_TIMEOUT (R168), while the resend timer runs. -/
def execResendTimeout (s : State) : Host.Outcome State Fault Refusal :=
  if s.link.send.timer.isSome then .next (s.setLink (linkResend s.link)) else .next s

/-- SILENCE_TIMEOUT (R170), while the silence timer runs. -/
def execSilenceTimeout (s : State) : Host.Outcome State Fault Refusal :=
  if s.link.session.silence.isSome then .next (sessionEnd .silence s) else .next s

end Sys2Proof.Machine
end

