-- ==== Sys2Proof/Machine/Dispatch.lean ====
section
/-! DEFINITION. The effect of every command: one arm for each row of spec/opcode_table.json. -/

namespace Sys2Proof.Machine

def exec (i : Instr) (s : State) : Host.Outcome State Fault Refusal :=
  match i with
  | .powerOn lr1 lr0 => Sys2Proof.Machine.execPowerOn lr1 lr0 s
  | .linkFrameComplete byte => Sys2Proof.Machine.execLinkFrameComplete byte s
  | .linkFrameAbandon byte framing => Sys2Proof.Machine.execLinkFrameAbandon byte framing s
  | .linkIdleGapExpiry => Sys2Proof.Machine.execLinkIdleGapExpiry s
  | .linkBreak => Sys2Proof.Machine.execLinkBreak s
  | .openSession tag window resendTime silenceTime action => Sys2Proof.Machine.execOpen tag window resendTime silenceTime action s
  | .closeSession tag => Sys2Proof.Machine.execClose tag s
  | .identify tag => Sys2Proof.Machine.execIdentify tag s
  | .status tag => Sys2Proof.Machine.execStatus tag s
  | .ackReports tag seq => Sys2Proof.Machine.execAckReports tag seq s
  | .resetEngine tag scope line => Sys2Proof.Machine.execResetEngine tag scope line s
  | .resetAll tag => Sys2Proof.Machine.execResetAll tag s
  | .entryAdd tag params => Sys2Proof.Machine.execEntryAdd tag params s
  | .entrySet tag index gen params => Sys2Proof.Machine.execEntrySet tag index gen params s
  | .entryLoad tag index gen offset values => Sys2Proof.Machine.execEntryLoad tag index gen offset values s
  | .entryRead tag index => Sys2Proof.Machine.execEntryRead tag index s
  | .entryFree tag index gen => Sys2Proof.Machine.execEntryFree tag index gen s
  | .chainInsert tag slot position index gen => Sys2Proof.Machine.execChainInsert tag slot position index gen s
  | .chainRemove tag slot index => Sys2Proof.Machine.execChainRemove tag slot index s
  | .chainRead tag slot => Sys2Proof.Machine.execChainRead tag slot s
  | .scheduleLength tag length => Sys2Proof.Machine.execScheduleLength tag length s
  | .busConfig tag rate period guard settling => Sys2Proof.Machine.execBusConfig tag rate period guard settling s
  | .start tag line => Sys2Proof.Machine.execStart tag line s
  | .halt tag => Sys2Proof.Machine.execHalt tag s
  | .quiet tag => Sys2Proof.Machine.execQuiet tag s
  | .wake tag => Sys2Proof.Machine.execWake tag s
  | .submit tag kind drop first inCount outCount retries force values line => Sys2Proof.Machine.execSubmit tag kind drop first inCount outCount retries force values line s
  | .cancel tag ticket line => Sys2Proof.Machine.execCancel tag ticket line s
  | .dropAttach tag drop threshold interval => Sys2Proof.Machine.execDropAttach tag drop threshold interval s
  | .dropDetach tag drop => Sys2Proof.Machine.execDropDetach tag drop s
  | .dropRead tag drop => Sys2Proof.Machine.execDropRead tag drop s
  | .dropClearService tag drop => Sys2Proof.Machine.execDropClearService tag drop s
  | .setConfig tag set mode width => Sys2Proof.Machine.execSetConfig tag set mode width s
  | .setRead tag set => Sys2Proof.Machine.execSetRead tag set s
  | .eventMask tag dropMask serviceMask frameMask => Sys2Proof.Machine.execEventMask tag dropMask serviceMask frameMask s
  | .frameStart line => Sys2Proof.Machine.execFrameStart line s
  | .quietBoundary => Sys2Proof.Machine.execQuietBoundary s
  | .settlingBoundary line => Sys2Proof.Machine.execSettlingBoundary line s
  | .wakePulse line => Sys2Proof.Machine.execWakePulse line s
  | .broadcastGapEnd line => Sys2Proof.Machine.execBroadcastGapEnd line s
  | .requestFrameEnd => Sys2Proof.Machine.execRequestFrameEnd s
  | .answerDeadline line => Sys2Proof.Machine.execAnswerDeadline line s
  | .answerEnd line => Sys2Proof.Machine.execAnswerEnd line s
  | .attemptEnd line held => Sys2Proof.Machine.execAttemptEnd line held s
  | .txFrameStart => Sys2Proof.Machine.execTxFrameStart s
  | .replySent => Sys2Proof.Machine.execReplySent s
  | .reportFrameSent => Sys2Proof.Machine.execReportFrameSent s
  | .resendTimeout => Sys2Proof.Machine.execResendTimeout s
  | .silenceTimeout => Sys2Proof.Machine.execSilenceTimeout s
  | .answerStartBit line => Sys2Proof.Machine.execAnswerStartBit line s
  | .broadcastFrameEnd => Sys2Proof.Machine.execBroadcastFrameEnd s
  | .linkCharacterReceived byte framing => Sys2Proof.Machine.execLinkCharacterReceived byte framing s

end Sys2Proof.Machine
end

