-- ==== Sys2Proof/Safety.lean ====
section
/-! DEFINITION. What holds of the part at all times: the invariants the rules state, block by block, and the
conditions under which a request command is taken. -/

namespace Sys2Proof.Machine

/-! ### When a request command is taken, and what it answers -/

/-- The request of this code, tag and payload is the oldest that waits at its owner, no RESET that waits was accepted
before it, and its owner does not hold its requests back (R150, R160, R176). -/
def ItsTurn (r : Request) (tag : Byte) (payload : List Byte) (s : State) : Prop := mayTake r tag payload s = true

/-- Command `c` at `s` completes: its owner leaves the state `t`, in which the reply of the request becomes ready
with this status and data (R161, R182). -/
def Answers (c : Instr) (tag : Byte) (st : Status) (data : List Byte) (s t : State) : Prop :=
  exec c s = .next (reply tag st data t)

/-- The request a request command stands for: its code, tag and payload bytes (10.3). -/
def requestOf : Instr → Option (Request × Byte × List Byte)
  | .openSession tag w r t a => some (.open_, tag, [w, r, t, a])
  | .closeSession tag => some (.close, tag, [])
  | .identify tag => some (.identify, tag, [])
  | .status tag => some (.status, tag, [])
  | .ackReports tag seq => some (.ackReports, tag, [seq])
  | .resetEngine tag scope _ => some (.reset, tag, [scope])
  | .resetAll tag => some (.reset, tag, [1])
  | .entryAdd tag p => some (.entryAdd, tag, paramBytes p)
  | .entrySet tag index gen p => some (.entrySet, tag, index :: gen :: paramBytes p)
  | .entryLoad tag index gen offset values =>
    some (.entryLoad, tag, [index, gen, offset] ++ values.flatMap linkWord)
  | .entryRead tag index => some (.entryRead, tag, [index])
  | .entryFree tag index gen => some (.entryFree, tag, [index, gen])
  | .chainInsert tag slot position index gen => some (.chainInsert, tag, [slot, position, index, gen])
  | .chainRemove tag slot index => some (.chainRemove, tag, [slot, index])
  | .chainRead tag slot => some (.chainRead, tag, [slot])
  | .scheduleLength tag len => some (.scheduleLength, tag, [len])
  | .busConfig tag rate period guard settling => some (.busConfig, tag, [rate, period, guard, settling])
  | .start tag _ => some (.start, tag, [])
  | .halt tag => some (.halt, tag, [])
  | .quiet tag => some (.quiet, tag, [])
  | .wake tag => some (.wake, tag, [])
  | .submit tag kind drop first i o retries force values _ =>
    some (.submit, tag, submitBytes kind drop first i o retries force values)
  | .cancel tag ticket _ => some (.cancel, tag, linkWord ticket)
  | .dropAttach tag drop threshold interval => some (.dropAttach, tag, [drop, threshold, interval])
  | .dropDetach tag drop => some (.dropDetach, tag, [drop])
  | .dropRead tag drop => some (.dropRead, tag, [drop])
  | .dropClearService tag drop => some (.dropClearService, tag, [drop])
  | .setConfig tag set mode width => some (.setConfig, tag, [set, mode, width])
  | .setRead tag set => some (.setRead, tag, [set])
  | .eventMask tag d v f => some (.eventMask, tag, [d, v, f])
  | .powerOn .. | .linkFrameComplete .. | .linkFrameAbandon .. | .linkIdleGapExpiry | .linkBreak
  | .linkCharacterReceived .. | .frameStart .. | .quietBoundary | .settlingBoundary .. | .wakePulse ..
  | .broadcastGapEnd .. | .broadcastFrameEnd | .requestFrameEnd | .answerDeadline .. | .answerEnd ..
  | .answerStartBit .. | .attemptEnd .. | .txFrameStart | .replySent | .reportFrameSent | .resendTimeout
  | .silenceTimeout => none

/-- The characters of a line arrive one after another, each with a good stop bit. -/
def receiveCharacters : List Byte → State → State
  | [], s => s
  | b :: rest, s =>
    match exec (.linkCharacterReceived b false) s with
    | .next t => receiveCharacters rest t
    | .fault _ => s
    | .refused _ => s

/-! ### SCM (R2, R5, R8) -/

/-- The fields of a transaction are in range (R2, R92). -/
def transOk (t : Transaction) : Bool :=
  countsOk t.kind t.inCount t.outCount && decide (t.first + max t.inCount t.outCount ≤ 64)
    && decide (t.retries ≤ 3)

/-- An ALLOCATED entry's fields are in range (R2, R4). -/
def bodyOk (b : EntryBody) : Bool :=
  transOk b.trans && b.outputs.length == b.trans.outCount
    && decide (b.done ≤ Config.limit16) && decide (b.failed ≤ Config.limit16)
    && decide (b.skipped ≤ Config.limit16) && decide (b.notReady ≤ Config.limit16)

/-- The number of chains that contain an index (R5). -/
def chainsHolding (m : Scm) (i : Fin Config.entryCount) : Nat :=
  (List.finRange Config.slotCount).countP fun k => (tget m.chains k).contains i

/-- The poll store and the frame table agree (R5): no index twice in a chain, no chain above 32 indices, link
counts equal to the chains that hold the entry, and no FREE entry in a chain; fields in range (R2) and L one of
its six values (R6). -/
def ScheduleInv (m : Scm) : Prop :=
  (∀ k : Fin Config.slotCount,
    (tget m.chains k).Nodup ∧ (tget m.chains k).length ≤ Config.chainLimit)
  ∧ (∀ i : Fin Config.entryCount,
      ((tget m.entries i).body.all fun b => bodyOk b) = true
      ∧ ((tget m.entries i).body.all fun b => b.linkCount == chainsHolding m i) = true
      ∧ ((tget m.entries i).body = none → chainsHolding m i = 0))
  ∧ isSchedLen m.schedLen = true

/-- For every ALLOCATED entry that has a route, the route offset plus the routed set's width is at most the
entry's in count (R8). -/
def RouteInv (s : State) : Prop :=
  ∀ i : Fin Config.entryCount,
    ((tget s.scm.entries i).body.all fun b => routeFits s.rst b.trans.inCount b.route) = true

/-! ### FEN and BTX (R21, R40, R50, R51, R93, R94, R122) -/

/-- The outstanding tickets: the in-flight one first, then the queue's (R96). -/
def outstandingTickets (f : Fen) : List Word :=
  (match f.item with
   | some { source := .adHoc ticket true, .. } => [ticket]
   | _ => [])
  ++ f.queue.map AdHoc.ticket

/-- At most 16 tickets are outstanding (R94), no two of one number (R93), the report queue's occupancy plus their
number is at most 32 (R122), and every queued item is in range and fits an empty frame (R24, R92). -/
def TicketInv (s : State) : Prop :=
  ticketCount s.fen ≤ Config.ticketLimit
  ∧ s.rep.queue.length + ticketCount s.fen ≤ Config.reportPlaces
  ∧ (outstandingTickets s.fen).Nodup
  ∧ ∀ h ∈ s.fen.queue, transOk h.trans = true ∧ h.trans.cost ≤ s.fen.config.budget

/-- The most bit-times an attempt on the line can still take until BTX is IDLE (R63); none when no attempt is on
the line. -/
def attemptLeft (c : Capture) : BtxState → Option Nat
  | .request => some c.cost
  | .wait => some (Config.answerDeadline + answerLimit c.inCount + Config.gapTime)
  | .answer => some (answerLimit c.inCount + Config.gapTime)
  | .gap (.attempt _) => some Config.gapTime
  | .idle | .broadcast _ | .gap (.broadcast _) => none

/-- BTX performs an attempt (R51). -/
def inAttempt : BtxState → Bool
  | .request | .wait | .answer | .gap (.attempt _) => true
  | .idle | .broadcast _ | .gap (.broadcast _) => false

/-- The attempt of the item in progress ends by the guard start, at the worst (R40). -/
def endsByGuard (s : State) : Bool :=
  match s.fen.timer, s.btx.capture with
  | some now, some c =>
    match attemptLeft c s.btx.state with
    | some left => decide (now + Config.ticks * left ≤ Config.ticks * s.fen.config.guardStart)
    | none => false
  | _, _ => false

/-- The stages in which items run (R35). -/
def Stage.walking : Stage → Bool
  | .periodic | .periodicEnded | .probe | .adHoc => true
  | .idle | .beacon => false

/-- Work on the bus keeps to the frame (R21, R35, R40, R51): an item is in progress exactly while BTX performs an
attempt, only in RUNNING or HALTING and in a stage of the walk, and its worst case ends by the guard start;
HALTING has an item in progress; between the items of a walk the bus is idle; a judgement is due only between the
items of a walk, and always there before the ad hoc stage (log 17); and no frame is walked in the other states. -/
def BudgetInv (s : State) : Prop :=
  (s.fen.item.isSome = inAttempt s.btx.state)
  ∧ (s.fen.item.isSome = true →
      endsByGuard s = true ∧ (s.fen.engine = .running ∨ s.fen.engine = .halting)
      ∧ s.fen.stage.walking = true ∧ s.btx.waiting = [])
  ∧ (s.fen.engine = .halting → s.fen.item.isSome = true)
  ∧ (s.fen.engine = .running → s.fen.stage.walking = true → s.fen.item = none →
      s.btx.state = .idle ∧ s.btx.waiting = [])
  ∧ (s.fen.judgeDue = true → s.fen.engine = .running ∧ s.fen.stage.walking = true ∧ s.fen.item = none)
  ∧ (s.fen.engine = .running → s.fen.stage = .periodic ∨ s.fen.stage = .periodicEnded ∨ s.fen.stage = .probe →
      s.fen.item = none →
      s.fen.judgeDue = true)
  ∧ (s.fen.engine = .stopped ∨ s.fen.engine = .quiet ∨ s.fen.engine = .waking → s.fen.stage = .idle)

/-- BTX drives the line in this state (R51). -/
def drives : BtxState → Bool
  | .request | .broadcast _ => true
  | .idle | .wait | .answer | .gap _ => false

/-- DBDE is asserted exactly while BTX drives the line, and BTX then listens to nothing (R50, R51). -/
def DriverInv (x : Btx) : Prop := x.dbde = drives x.state ∧ (drives x.state = true → x.heard = [])

/-- The TICKET-DONE ABORTED of a RESET ENGINE, one for each outstanding ticket: the in-flight item first, then the
queued items from head to tail (R101, R104). -/
def abortedTickets (f : Fen) : List TicketDone :=
  (match f.item with
   | some { source := .adHoc ticket true, attempts, lastError, .. } =>
     [{ ticket := ticket, outcome := .aborted, lastError := lastError, attempts := attempts, frame := f.frame,
        flags := none, values := [] }]
   | _ => [])
  ++ f.queue.map fun h =>
    { ticket := h.ticket, outcome := .aborted, lastError := none, attempts := 0, frame := f.frame,
      flags := none, values := [] }

/-! ### DRM (R73 to R75, R83) -/

/-- An identity is one a probe can give (R73, R81). -/
def identityOk (i : Identity) : Bool := decide (1 ≤ i.points) && decide (i.points ≤ 64)

/-- A drop record's fields agree with its state (R73, R74, R75, R83). -/
def dropOk (r : DropRec) : Bool :=
  decide (1 ≤ r.threshold) && decide (r.threshold ≤ 15) && decide (1 ≤ r.interval) && decide (r.interval ≤ 255)
  && decide (r.total ≤ Config.limit16) && r.identity.all identityOk
  && match r.state with
    | .off => r == DropRec.initial
    | .seeking => r.failures == 0 && r.due == 0 && r.identity.isNone
    | .online => r.failures == 0 && r.due == 0 && r.identity.isSome
    | .failing => decide (1 ≤ r.failures) && decide (r.failures < r.threshold) && r.due == 0 && r.identity.isSome
    | .quarantined => r.failures == r.threshold && decide (r.due ≤ r.interval) && r.identity.isSome

/-- Every drop record is sound. -/
def DropInv (m : Drm) : Prop := ∀ d : Fin Config.dropCount, dropOk (tget m.drops d) = true

/-! ### RST (R107, R110, R113) -/

/-- A slot holds a sample of the set's width. -/
def sampleOk (w : Nat) (x : Option Sample) : Bool := x.any fun s => s.values.length == w

/-- A set record's fields agree with its mode (R107, R110, R113). -/
def setOk (r : SetRec) : Bool :=
  decide (1 ≤ r.width) && decide (r.width ≤ 8) && decide (r.lost ≤ Config.limit8)
  && match r.mode with
    | .off => r == emptySet .off r.width
    | .block =>
      decide (r.fill ≤ 3) && r.newest == 0 && r.latest == 0
        && (List.range r.fill).all fun k => sampleOk r.width (tget r.slots (Fin.ofNat 4 k))
    | .latest =>
      r.fill == 0 && decide (r.latest ≤ 4) && r.block == 0 && r.lost == 0
        && (List.range r.latest).all fun k => sampleOk r.width (tget r.slots (r.newest - Fin.ofNat 4 k))

/-- Every set record is sound. -/
def SetInv (r : Rst) : Prop := ∀ k : Fin Config.setCount, setOk (tget r.sets k) = true

/-! ### LNK and REP (R139, R153, R157, R159, R162 to R165, R168, R173) -/

/-- A report frame on LTX that will advance the send position. -/
def countsOnLine : Ltx → Bool
  | .report _ counts => counts
  | .idle | .reply _ => false

/-- The report send state (R164, R165, R168): the send position and u lie within the queue and the window, the
resend timer runs exactly while u is above 0 and the path is SENDING, STALLED comes at the third expiry, and a
CLOSED session has the cleared send state. -/
def SendInv (s : State) : Prop :=
  s.link.send.unacked ≤ s.rep.queue.length
  ∧ s.link.send.unacked ≤ s.link.session.window ∧ s.link.session.window ≤ 8
  ∧ s.link.send.position ≤ s.link.send.unacked
  ∧ (countsOnLine s.link.ltx = true → s.link.send.position < s.link.send.unacked)
  ∧ (s.link.send.timer.isSome = true ↔ 0 < s.link.send.unacked ∧ s.link.send.path = .sending)
  ∧ (s.link.send.path = .sending → s.link.send.resends ≤ 2)
  ∧ (s.link.send.path = .stalled → s.link.send.resends = 3 ∧ 0 < s.link.send.unacked)
  ∧ (s.link.session.state = .closed → s.link.send = .cleared)

/-- Whether a place holds a request that is taken in a CLOSED session too (R159). -/
def Place.anySession (p : Place) : Bool := (requestOfKind p.kind).any Request.anySession

/-- What a session governs (R106, R123, R127, R139, R159, R170, R173): in a CLOSED session the report queue is
empty, no ticket is outstanding, every class is MASKED, the silence timer is stopped and no request of an open
session is outstanding; in an OPEN one the silence timer runs; and a request that waits or is deferred was
accepted in an open session unless it may be taken in any. -/
def SessionInv (s : State) : Prop :=
  (s.link.session.state = .closed →
    s.rep.queue = [] ∧ ticketCount s.fen = 0
    ∧ s.rep.maskDrop = .masked ∧ s.rep.maskService = .masked ∧ s.rep.maskFrame = .masked
    ∧ s.link.session.silence = none ∧ ∀ p ∈ s.link.places, p.inOpen = false)
  ∧ (s.link.session.state ≠ .closed → s.link.session.silence.isSome = true)
  ∧ ∀ p ∈ s.link.places, (p.phase = .waiting → p.inOpen = true ∨ p.anySession = true)
      ∧ (p.phase = .deferred → p.inOpen = true)

/-- The replies on their way to outstanding requests: those ready and the one on LTX. -/
def pendingReplies (l : Link) : List OutReply :=
  (match l.ltx with
   | .reply r => [r]
   | .idle | .report _ _ => []) ++ l.outbox

/-- The tags of the outstanding requests whose reply is ready. -/
def readyTags (l : Link) : List Byte := (l.places.filter fun p => p.phase == .ready).map Place.tag

/-- The tags the replies on their way answer. -/
def answeredTags (l : Link) : List Byte :=
  ((pendingReplies l).filter fun r => r.origin == .request).map OutReply.tag

/-- The receiver's characters are the beginning of a frame (R153, R154). -/
def receiverOk : RxState → Bool
  | .hunting => true
  | .collecting bytes =>
    match bytes with
    | [] => true
    | len :: _ => decide (len.toNat ≤ Config.payloadLimit) && decide (bytes.length < len.toNat + 5)

/-- The capacities of LNK (R155 to R157, R162): at most 4 outstanding requests, their tags all different, each
with one reply on its way exactly when it is ready; at most 4 short replies and 8 entries of reply memory. -/
def PlacesInv (l : Link) : Prop :=
  l.places.length ≤ Config.requestPlaces
  ∧ (l.places.map Place.tag).Nodup
  ∧ (answeredTags l).Perm (readyTags l)
  ∧ l.shortCount ≤ Config.shortPlaces
  ∧ l.memory.length ≤ Config.memoryPlaces
  ∧ l.badFrames ≤ Config.limit16
  ∧ receiverOk l.receiver = true

/-- Every invariant. -/
def Sound (s : State) : Prop :=
  ScheduleInv s.scm ∧ RouteInv s ∧ TicketInv s ∧ BudgetInv s ∧ DriverInv s.btx ∧ DropInv s.drm ∧ SetInv s.rst
  ∧ SendInv s ∧ SessionInv s ∧ PlacesInv s.link

end Sys2Proof.Machine
end

