-- ==== Sys2Proof/Certificates/Slice0/Obligations.lean ====
section
/-! DEFINITION. The statements for the provers. A statement about a request command assumes only that the request's
turn has come (`ItsTurn`, and conditions on the fields and the state); its conclusion names the whole next state, so
that what it does not name is unchanged. -/

open Sys2Proof Sys2Proof.Machine

/-! ### The step, the commands and reset -/

/-- A step runs the command at the front of the queue on the state with the queue's rest; an empty queue idles
(the second clause is the model's choice, log 3). -/
def Obligations.StepRunsTheFrontCommand : Prop :=
  (∀ (c : Instr) (rest : List Instr) (s : State),
    step { s with pending := c :: rest } = exec c { s with pending := rest })
  ∧ ∀ s : State, s.pending = [] → step s = .next s

/-- Every command completes in every state, and none touches the queue of commands. That an event command whose
occasion is absent completes too is the model's choice (log 2). -/
def Obligations.EveryCommandCompletes : Prop :=
  ∀ (c : Instr) (s : State), ∃ t : State, exec c s = .next t ∧ t.pending = s.pending

/-- A request command whose request does not wait yet brings its frame to a receiver that hunts; a request that is
not the oldest at its owner, or is held back, stays; the command then changes nothing else (the model's choice,
log 1 and log 2). The turn of a request has come when it waits, no request of the same owner that was accepted before it
waits (R160), no RESET of scope ENGINE or ALL accepted before it waits (R176), and it is not held back while a RESET
ENGINE sends its RESUME (R150, R176); that LNK's own requests are among these, and that scope ENGINE holds back the
requests of every owner, is the model's reading (log 16). -/
def Obligations.RequestCommandBringsTheFrame : Prop :=
  (∀ (r : Request) (tag : Byte) (payload : List Byte) (s : State),
    ItsTurn r tag payload s ↔
      (∃ before p after, s.link.places = before ++ p :: after
        ∧ p.phase = .waiting ∧ p.tag = tag ∧ p.kind = r.code ∧ p.payload = payload
        ∧ ∀ q ∈ before, q.phase = .waiting →
            (∀ x, requestOfKind q.kind = some x → x.owner ≠ r.owner)
            ∧ ¬ (q.kind = 0x06 ∧ (q.payload = [0] ∨ q.payload = [1])))
      ∧ (s.fen.resetPending = true → r.owner ≠ .fen ∧ r ≠ .reset))
  ∧ ∀ (c : Instr) (r : Request) (tag : Byte) (payload : List Byte) (s : State),
    requestOf c = some (r, tag, payload) →
    (isWaiting r tag payload s.link = true → ¬ ItsTurn r tag payload s → exec c s = .next s)
    ∧ (isWaiting r tag payload s.link = false → payload.length ≤ 240 → s.link.receiver = .hunting →
        let f : Frame := { kind := r.code, tag := tag, payload := payload, check := frameCheck r.code tag payload }
        let t := s.setLink (takeFrame f { s.link with breakHold := false })
        (ItsTurn r tag payload t → exec c s = exec c t) ∧ (¬ ItsTurn r tag payload t → exec c s = .next t))
    ∧ (isWaiting r tag payload s.link = false → 240 < payload.length ∨ s.link.receiver ≠ .hunting →
        exec c s = .next s)

/-- R179: what LNK holds after power-on. The links of `outbox` hold the ready replies and the short-reply list. -/
def Obligations.PowerOnLinkValues : Prop :=
  ∀ (lr1 lr0 : Bool) (s : State), ∃ t : State, exec (.powerOn lr1 lr0) s = .next t
    ∧ t.link.rate = (match lr1, lr0 with
        | false, false => LinkRate.b115200
        | false, true => LinkRate.b230400
        | true, false => LinkRate.b460800
        | true, true => LinkRate.b921600)
    ∧ t.link.receiver = .hunting ∧ t.link.places = [] ∧ t.link.outbox = [] ∧ t.link.memory = []
    ∧ t.link.session.state = .closed ∧ t.link.session.endCause = .none ∧ t.link.session.silence = none
    ∧ t.link.send.unacked = 0 ∧ t.link.send.position = 0 ∧ t.link.send.resends = 0
    ∧ t.link.send.timer = none ∧ t.link.send.path = .sending
    ∧ t.link.badFrames = 0 ∧ t.link.ltx = .idle

/-- What the other blocks hold after power-on (R20, R46, R72, R91, R117, R137, R151). Drop address 24 is index 23. -/
def Obligations.PowerOnBlockValues : Prop :=
  ∀ (lr1 lr0 : Bool) (s : State), ∃ t : State, exec (.powerOn lr1 lr0) s = .next t
    ∧ (∀ i, tget t.scm.entries i = { gen := 0, body := none }) ∧ (∀ k, tget t.scm.chains k = [])
    ∧ t.scm.schedLen = 1
    ∧ t.fen.engine = .stopped ∧ t.fen.timer = none ∧ t.fen.frame = 0
    ∧ t.fen.config = { rate := .m1, period := 8, guard := 64, settling := 4 }
    ∧ t.fen.jamCount = 0 ∧ t.fen.skipCount = 0 ∧ t.fen.plan = [] ∧ t.fen.item = none
    ∧ t.fen.queue = [] ∧ t.fen.ticket = 0
    ∧ t.fen.quietPending = false ∧ t.fen.settling = 0 ∧ t.fen.watching = false ∧ t.fen.lowMeasure = 0
    ∧ t.btx.state = .idle ∧ t.btx.dbde = false ∧ t.btx.capture = none ∧ t.btx.rx = .empty ∧ t.btx.jamRecord = 0
    ∧ t.btx.heard = [] ∧ t.btx.waiting = []
    ∧ (∀ d, tget t.drm.drops d =
        { state := .off, threshold := 3, interval := 16, failures := 0, due := 0, identity := none,
          service := false, total := 0 })
    ∧ t.drm.cursor.val = 23 ∧ t.drm.probe = none
    ∧ (∀ k, tget t.rst.sets k =
        { mode := .off, width := 1, slots := Vector.replicate _ none, fill := 0, newest := 0, latest := 0,
          block := 0, lost := 0 })
    ∧ t.rep.queue = [] ∧ t.rep.nextSeq = 0
    ∧ t.rep.maskDrop = .masked ∧ t.rep.maskService = .masked ∧ t.rep.maskFrame = .masked
    ∧ (∀ d, tget t.rep.dropLatches d = none) ∧ (∀ d, tget t.rep.serviceLatches d = false)
    ∧ t.rep.frameLatch = none ∧ t.rep.engineLatch = none

/-- Every invariant holds at reset. -/
def Obligations.SoundAtReset : Prop := Sound State.reset

/-! ### Receiving frames -/

/-- The characters of a well-formed frame, sent to a receiver that hunts, are taken as one request frame
(R153, R155, R180, R185). While the receiver hunts, SYNC begins a frame and any other character is passed over; while
it collects, a character joins the frame, completes it, or abandons it. That a character ends a break, so that the line
no longer counts as held low, is the model's own mark (log 26). `bytes` are LEN and what followed it. -/
def Obligations.FrameCharactersMakeARequest : Prop :=
  (∀ (kind tag : Byte) (payload : List Byte) (s : State),
    s.link.receiver = .hunting → payload.length ≤ 240 →
    receiveCharacters (linkFrame kind tag payload) s =
      s.setLink (takeFrame { kind := kind, tag := tag, payload := payload, check := frameCheck kind tag payload }
        { s.link with breakHold := false }))
  ∧ (∀ (b : Byte) (framing : Bool) (s : State), s.link.receiver = .hunting →
      exec (.linkCharacterReceived b framing) s = .next (s.setLink { s.link with
        receiver := if framing = false ∧ b = 0xC3 then .collecting [] else .hunting, breakHold := false }))
  ∧ ∀ (bytes : List Byte) (b : Byte) (s : State), s.link.receiver = .collecting bytes →
      let joins := exec (.linkCharacterReceived b false) s = .next (s.setLink { s.link with
        receiver := .collecting (bytes ++ [b]), breakHold := false })
      let whole := (bytes.getD 0 0).toNat + 5
      (bytes = [] → b.toNat ≤ 240 → joins)
      ∧ (bytes = [] → 240 < b.toNat → exec (.linkCharacterReceived b false) s = exec (.linkFrameAbandon b false) s)
      ∧ (bytes ≠ [] → bytes.length + 1 < whole → joins)
      ∧ (bytes ≠ [] → bytes.length + 1 = whole →
          exec (.linkCharacterReceived b false) s = exec (.linkFrameComplete b) s)
      ∧ exec (.linkCharacterReceived b true) s = exec (.linkFrameAbandon b true) s

/-- The second CHECK byte completes a frame: it is taken when its check matches, else discarded and counted (R155).
The three commands that abandon a frame discard and count it while one is collected, and nothing else (R154). That one
of them changes nothing while the receiver hunts, whatever its character, is the model's choice (log 2), and the mark of
a break is its own (log 26). `bytes` are LEN and what followed it. -/
def Obligations.FramesCompletedOrAbandoned : Prop :=
  ∀ (bytes : List Byte) (b : Byte) (s : State),
    (s.link.receiver = .collecting bytes →
      (∀ n, bytes.length = n + 1 → n = (bytes.getD 0 0).toNat + 3 →
        let check := wordFrom b (bytes.getD n 0)
        let l := { s.link with receiver := RxState.hunting, breakHold := false }
        (linkCheck (bytes.take n) = check →
          exec (.linkFrameComplete b) s = .next (s.setLink (takeFrame
            { kind := bytes.getD 1 0, tag := bytes.getD 2 0, payload := (bytes.take n).drop 3, check := check } l)))
        ∧ (linkCheck (bytes.take n) ≠ check →
          exec (.linkFrameComplete b) s = .next (s.setLink { l with badFrames := min (l.badFrames + 1) 65535 })))
      ∧ (let l := { s.link with receiver := RxState.hunting, badFrames := min (s.link.badFrames + 1) 65535 }
        exec .linkIdleGapExpiry s = .next (s.setLink l)
        ∧ exec .linkBreak s = .next (s.setLink { l with breakHold := true })
        ∧ exec (.linkFrameAbandon b true) s = .next (s.setLink { l with breakHold := false })
        ∧ (bytes = [] → 240 < b.toNat →
            exec (.linkFrameAbandon b false) s = .next (s.setLink { l with breakHold := false }))))
    ∧ (s.link.receiver = .hunting →
      exec .linkIdleGapExpiry s = .next s
      ∧ exec .linkBreak s = .next (s.setLink { s.link with breakHold := true })
      ∧ ∀ framing, exec (.linkFrameAbandon b framing) s = .next s)

/-- A frame that has passed the check is taken in five steps (R156 to R160): a repeat of a sent request is answered
from reply memory, one of an outstanding request is discarded, a used tag is answered DUPLICATE, a full buffer
BUSY; an accepted request takes a place and is refused with UNKNOWN-REQUEST, BAD-LENGTH or NO-SESSION or passed
on. `short` is a reply that joins the short-reply list, unless the list is full. The codes are those of 10.2, and the
lengths those of R181 and 10.3. -/
def Obligations.FrameTakenInFiveSteps : Prop :=
  (∀ (kind : Byte) (r : Request), requestOfKind kind = some r ↔
    (kind, r) ∈ ([(0x01, .open_), (0x02, .close), (0x03, .identify), (0x04, .status), (0x05, .ackReports),
      (0x06, .reset), (0x10, .entryAdd), (0x11, .entrySet), (0x12, .entryLoad), (0x13, .entryRead),
      (0x14, .entryFree), (0x18, .chainInsert), (0x19, .chainRemove), (0x1A, .chainRead), (0x1B, .scheduleLength),
      (0x20, .busConfig), (0x21, .start), (0x22, .halt), (0x23, .quiet), (0x24, .wake), (0x28, .submit),
      (0x29, .cancel), (0x30, .dropAttach), (0x31, .dropDetach), (0x32, .dropRead), (0x33, .dropClearService),
      (0x38, .setConfig), (0x39, .setRead), (0x3C, .eventMask)] : List (Byte × Request)))
  ∧ (∀ (r : Request) (p : List Byte), lengthOk r p = true ↔
      match r with
      | .entryLoad => 5 ≤ p.length ∧ p.length ≤ 35 ∧ p.length % 2 = 1
      | .submit => 7 ≤ p.length ∧ p.length - 7 = 2 * (p.getD 4 0).toNat
      | .close | .identify | .status | .start | .halt | .quiet | .wake => p.length = 0
      | .ackReports | .reset | .entryRead | .chainRead | .scheduleLength | .dropDetach | .dropRead
      | .dropClearService | .setRead => p.length = 1
      | .entryFree | .chainRemove | .cancel => p.length = 2
      | .dropAttach | .setConfig | .eventMask => p.length = 3
      | .open_ | .chainInsert | .busConfig => p.length = 4
      | .entryAdd => p.length = 9
      | .entrySet => p.length = 11)
  ∧ ∀ (f : Frame) (l0 : Link),
    let l := restartSilence l0
    let short := fun r : OutReply => if l.shortCount < 4 then { l with outbox := l.outbox ++ [r] } else l
    let place := fun ph => ({
      tag := f.tag, check := f.check, kind := f.kind, payload := f.payload,
      inOpen := l.session.state == .opened, phase := ph } : Place)
    let kind := if (requestOfKind f.kind).isSome then f.kind + 0x80 else (0xFF : Byte)
    let refused := fun st : Status => { l with
      places := l.places ++ [place .ready],
      outbox := l.outbox ++ [{ kind := kind, tag := f.tag, payload := [st.code], check := f.check,
                               origin := .request }] }
    (∀ m ∈ l.memory, m.tag = f.tag → m.check = f.check →
      ∃ m' ∈ l.memory, m'.tag = f.tag ∧ m'.check = f.check ∧ takeFrame f l0 = short { m' with origin := .short })
    ∧ ((∀ m ∈ l.memory, ¬ (m.tag = f.tag ∧ m.check = f.check)) →
      (∀ p, l.placeOf f.tag = some p →
        (p.check = f.check → takeFrame f l0 = l)
        ∧ (p.check ≠ f.check → takeFrame f l0 =
            short { kind := kind, tag := f.tag, payload := [0x11], check := f.check, origin := .short }))
      ∧ (l.placeOf f.tag = none →
        (4 ≤ l.places.length → takeFrame f l0 =
            short { kind := kind, tag := f.tag, payload := [0x10], check := f.check, origin := .short })
        ∧ (l.places.length < 4 →
          (requestOfKind f.kind = none → takeFrame f l0 = refused .unknownRequest)
          ∧ ∀ r, requestOfKind f.kind = some r →
            (lengthOk r f.payload = false → takeFrame f l0 = refused .badLength)
            ∧ (lengthOk r f.payload = true → l.session.state ≠ .opened →
                r ≠ .open_ → r ≠ .identify → r ≠ .status → takeFrame f l0 = refused .noSession)
            ∧ (lengthOk r f.payload = true →
                (l.session.state = .opened ∨ r = .open_ ∨ r = .identify ∨ r = .status) →
                takeFrame f l0 = { l with places := l.places ++ [place .waiting] }))))

/-- The reply of an outstanding request: KIND is the request code plus 0x80, or 0xFF when it is unknown; TAG is the
request's; the status comes first in the payload; the place stays occupied (R157, R161). The codes of the statuses and
of the enumerations that replies carry are those of 10.2 (R180). -/
def Obligations.ReplyAnswersTheRequest : Prop :=
  ([Status.ok, .accepted, .cancelled, .inFlight, .already, .busy, .duplicate, .unknownRequest, .badLength, .noSession,
      .alreadyOpen, .badAck, .wrongState, .outOfRange, .stale, .conflict, .noSpace, .inUse, .alreadyLinked, .chainFull,
      .notLinked, .notFound, .tooLarge, .queueFull, .aborted].map Status.code
    = [0x00, 0x01, 0x02, 0x03, 0x04, 0x10, 0x11, 0x12, 0x13, 0x14, 0x15, 0x16, 0x20, 0x21, 0x22, 0x23, 0x30, 0x31,
      0x32, 0x33, 0x34, 0x35, 0x36, 0x37, 0x38])
  ∧ ([TransKind.read, .write, .exchange].map TransKind.code = [1, 2, 3]
    ∧ (∀ e, [LastOutcome.never, .ok, .dropFault, .failed e, .skipped, .notReady].map LastOutcome.code
        = [0, 1, 2, 3, 4, 5])
    ∧ [SetMode.off, .block, .latest].map SetMode.code = [0, 1, 2]
    ∧ [Mask.masked, .unmasked].map Mask.code = [0, 1]
    ∧ [EndCause.none, .close, .silence].map EndCause.code = [0, 1, 2]
    ∧ [LinkLoss.continue_, .halt].map LinkLoss.code = [0, 1]
    ∧ [PathState.sending, .stalled].map PathState.code = [0, 1])
  ∧ ∀ (tag : Byte) (st : Status) (data : List Byte) (s : State) (p : Place),
    s.link.placeOf tag = some p →
    reply tag st data s = s.setLink { s.link with
      places := s.link.places.map fun q => if q.tag = tag then { q with phase := .ready } else q,
      outbox := s.link.outbox ++
        [{ kind := if (requestOfKind p.kind).isSome then p.kind + 0x80 else 0xFF, tag := p.tag,
           payload := st.code :: data, check := p.check, origin := .request }] }

/-! ### The session requests -/

/-- OPEN (R171, R139) and CLOSE (R172). The engine latch is offered to the queue, which is empty when a session
opens. That a CLOSE taken in a session that is already closing is answered OK too is the model's choice (log 15). -/
def Obligations.OpenAndClose : Prop :=
  ∀ (tag w r t a : Byte) (s : State),
    let inRange := 1 ≤ w.toNat ∧ w.toNat ≤ 8 ∧ r.toNat ≤ 25 ∧ 1 ≤ t.toNat ∧ t.toNat ≤ 50 ∧ (a = 0 ∨ a = 1)
    (ItsTurn .open_ tag [w, r, t, a] s →
      (s.link.session.state ≠ .closed → Answers (.openSession tag w r t a) tag .alreadyOpen [] s s)
      ∧ (s.link.session.state = .closed → ¬ inRange → Answers (.openSession tag w r t a) tag .outOfRange [] s s)
      ∧ (s.link.session.state = .closed → inRange → s.rep.queue = [] → ticketCount s.fen = 0 →
        let tr := if r = 0 then 5 else r.toNat
        let session : Session :=
          { state := .opened, window := w.toNat, resendTime := tr, silenceTime := t.toNat,
            action := if a = 1 then .halt else .continue_, silence := some (100 * t.toNat),
            endCause := s.link.session.endCause }
        Answers (.openSession tag w r t a) tag .ok
          [w, byteOf tr, t, a, s.link.session.endCause.code, s.fen.engine.code, lowByte s.fen.frame,
           highByte s.fen.frame] s
          ((s.setLink { s.link with
              session := session, badFrames := 0,
              send := { unacked := 0, position := 0, resends := 0, timer := none, path := .sending } }).setRep
            (match s.rep.engineLatch with
             | none => { s.rep with nextSeq := 0 }
             | some l => { s.rep with
                 queue := [{ seq := 0, report := .engineState l.change l.count }], nextSeq := 1,
                 engineLatch := none }))))
    ∧ (ItsTurn .close tag [] s → s.link.session.state ≠ .closed →
      Answers (.closeSession tag) tag .ok [] s
        (s.setLink { s.link with session := { s.link.session with state := .closing } }))

/-- R174: IDENTIFY. -/
def Obligations.IdentifyReturnsTheCapacities : Prop :=
  ∀ (tag : Byte) (s : State), ItsTurn .identify tag [] s →
    Answers (.identify tag) tag .ok
      [0x24, 0x4C, 1,
       (match s.link.rate with | .b115200 => 0 | .b230400 => 1 | .b460800 => 2 | .b921600 => 3),
       24, 128, 32, 32, 16, 16, 32, 4, 8] s s

/-- STATUS returns a view of the part, each field at its offset in the reply data, and changes nothing (R175, R136,
10.4). -/
def Obligations.StatusReturnsAView : Prop :=
  ∀ (tag : Byte) (s : State), ItsTurn .status tag [] s →
    ∃ data : List Byte, Answers (.status tag) tag .ok data s s ∧ data.length = 29
      ∧ data.take 22 =
        [s.fen.engine.code, lowByte s.fen.frame, highByte s.fen.frame, byteOf s.fen.queue.length,
         byteOf (ticketCount s.fen),
         (match s.link.session.state with | .closed => 0 | .opened => 1 | .closing => 2),
         byteOf s.link.session.window, byteOf s.link.session.resendTime, byteOf s.link.session.silenceTime,
         s.link.session.action.code, s.link.session.endCause.code, s.link.send.path.code,
         (match s.rep.queue with | [] => s.rep.nextSeq | q :: _ => q.seq), byteOf s.link.send.unacked,
         byteOf s.link.badFrames, byteOf (s.link.badFrames / 256), byteOf s.rep.queue.length, s.rep.nextSeq,
         s.rep.maskDrop.code, s.rep.maskService.code, s.rep.maskFrame.code, flagByte s.rep.engineLatch.isSome]
      ∧ (∀ d : Fin 24, (data.getD (22 + d.val / 8) 0).getLsbD (d.val % 8) = (tget s.rep.dropLatches d).isSome)
      ∧ (∀ d : Fin 24, (data.getD (25 + d.val / 8) 0).getLsbD (d.val % 8) = tget s.rep.serviceLatches d)
      ∧ data.getD 28 0 = flagByte s.rep.frameLatch.isSome

/-- ACK-REPORTS (R166, R167, R134): a sequence in the sent-unacknowledged range removes the reports up to it and
offers the latches; the last acknowledged sequence is a repeat; any other is refused. That a report frame on LTX counts
no more once the send position has been set back is the model's reading (log 10), and that a repeat restarts the resend
timer at once is its choice (log 30). -/
def Obligations.AckReportsRemovesOrResends : Prop :=
  ∀ (tag seq : Byte) (s : State), ItsTurn .ackReports tag [seq] s →
    let oldest := oldestSeq s.rep
    let l := s.link
    let off := fun x : Ltx => match x with | .report q _ => Ltx.report q false | y => y
    (∀ k, (seq - oldest).toNat + 1 = k → k ≤ l.send.unacked →
      ∃ t : State, Answers (.ackReports tag seq) tag .ok [byteOf k, oldestSeq t.rep, 0] s t
        ∧ t.rep = (offering (s.link.session.state != .closed) (ticketCount s.fen)
            (latchOrder true (s.rep.maskDrop == .unmasked) (s.rep.maskService == .unmasked)
              (s.rep.maskFrame == .unmasked))
            { s.rep with queue := s.rep.queue.drop k }).1
        ∧ t = (s.setRep t.rep).setLink { l with
            send := { unacked := l.send.unacked - k,
                      position := if l.send.path = .stalled then 0 else l.send.position - k,
                      resends := 0,
                      timer := if k < l.send.unacked then some (10 * l.session.resendTime) else none,
                      path := .sending },
            ltx := if l.send.path = .stalled ∨ l.send.position < k then off l.ltx else l.ltx })
    ∧ (l.send.unacked ≤ (seq - oldest).toNat → seq = oldest - 1 →
        Answers (.ackReports tag seq) tag .ok [0, oldest, 0] s
          (s.setLink { l with
            send := { l.send with
              position := 0, resends := 0, path := .sending,
              timer := if 0 < l.send.unacked then some (10 * l.session.resendTime) else none },
            ltx := off l.ltx }))
    ∧ (l.send.unacked ≤ (seq - oldest).toNat → seq ≠ oldest - 1 →
        Answers (.ackReports tag seq) tag .badAck [] s s)

/-- RESET ENGINE outside QUIET and WAKING (R47, R70, R71, R91, R104, R119, R138, R177): the TICKET-DONE ABORTED of the
in-flight ticket and of the queued ones come first, the deferred requests of the engine are answered ABORTED, and
the engine is STOPPED with its counter at 0. An attempt is abandoned, a broadcast on the line goes on, and the jam
record is kept, with the line up to the reset. A scope that is neither ENGINE nor ALL is out of range (R176); that the
command leaves a RESET of scope ALL waiting is the model's choice (log 22), and so is that a RESET is performed in a
session that an earlier CLOSE has made closing (log 29). -/
def Obligations.ResetEngineStopsTheEngine : Prop :=
  (∀ (tag scope : Byte) (line : List Level) (s : State), ItsTurn .reset tag [scope] s →
    (scope ≠ 0 → scope ≠ 1 → Answers (.resetEngine tag scope line) tag .outOfRange [] s s)
    ∧ (scope = 1 → exec (.resetEngine tag scope line) s = .next s))
  ∧ ∀ (tag : Byte) (line : List Level) (s : State), ItsTurn .reset tag [0] s →
    s.fen.engine ≠ .quiet → s.fen.engine ≠ .waking →
    ∃ t : State, Answers (.resetEngine tag 0 line) tag .ok [0, 0, 0, 0, 0] s t
      ∧ t.fen.engine = .stopped ∧ t.fen.timer = none ∧ t.fen.frame = 0 ∧ t.fen.config = s.fen.config
      ∧ t.fen.jamCount = 0 ∧ t.fen.skipCount = 0 ∧ t.fen.plan = [] ∧ t.fen.item = none ∧ t.fen.queue = []
      ∧ t.fen.ticket = s.fen.ticket ∧ t.fen.quietPending = false
      ∧ t.scm = s.scm
      ∧ (∀ b, s.btx.state = .broadcast b ∨ s.btx.state = .gap (.broadcast b) →
          t.btx = { s.btx with capture := none })
      ∧ ((∀ b, s.btx.state ≠ .broadcast b ∧ s.btx.state ≠ .gap (.broadcast b)) →
          let seen := s.btx.heard ++ line
          t.btx.state = .idle ∧ t.btx.dbde = false ∧ t.btx.capture = none
          ∧ t.btx.rx = { startAt := none, bytes := [], endAt := none } ∧ t.btx.waiting = s.btx.waiting
          ∧ t.btx.jamRecord =
            (if s.btx.state = .request then s.btx.jamRecord <<< (line.length * s.busRate.grains)
             else (btxHear s.busRate seen.length seen s.btx).jamRecord))
      ∧ (∀ d, tget t.drm.drops d =
          if (tget s.drm.drops d).state = .off then tget s.drm.drops d
          else { tget s.drm.drops d with
            state := .seeking, failures := 0, due := 0, identity := none, service := false })
      ∧ t.drm.cursor.val = 23 ∧ t.drm.probe = none
      ∧ (∀ k, tget t.rst.sets k =
          { mode := (tget s.rst.sets k).mode, width := (tget s.rst.sets k).width,
            slots := Vector.replicate _ none, fill := 0, newest := 0, latest := 0, block := 0, lost := 0 })
      ∧ t.link = linkAnswer (fun r => r == .halt || r == .quiet || r == .wake) .aborted [] s.link
      ∧ t.rep.maskDrop = s.rep.maskDrop ∧ t.rep.maskService = s.rep.maskService
      ∧ t.rep.maskFrame = s.rep.maskFrame
      ∧ t.rep.dropLatches = s.rep.dropLatches ∧ t.rep.serviceLatches = s.rep.serviceLatches
      ∧ t.rep.frameLatch = s.rep.frameLatch
      ∧ ∃ tail : List Report,
          t.rep.queue.map Queued.report =
            s.rep.queue.map Queued.report ++ (abortedTickets s.fen).map .ticketDone ++ tail
          ∧ (s.fen.engine = .stopped → tail = [] ∧ t.rep.engineLatch = s.rep.engineLatch)
          ∧ (s.fen.engine ≠ .stopped →
              let c : EngineChange :=
                { new := .stopped, left := s.fen.engine, cause := .reset, frame := s.fen.frame }
              (tail = [.engineState c 1] ∧ s.rep.engineLatch = none ∧ t.rep.engineLatch = none)
              ∨ (tail = [] ∧ t.rep.engineLatch.map EngineLatch.change = some c))

/-- RESET ENGINE taken in QUIET or WAKING (R71, R150): the wake monitor and the frame timer stop, a RESUME is handed
over and follows directly after the broadcast on the line, and the reply waits. That every broadcast that has not
begun is withdrawn, and not the QUIET of R143 alone, is the model's reading of the two broadcasts R150 allows (log 23).
When the closing gap of that RESUME ends the reset completes: tickets ABORTED, then WAKE ABORTED, STOPPED with its
ENGINE-STATE, counter 0, the RESET reply. That DRM and RST take their values when the reset is taken, and not when it
completes, is the model's reading (log 11); that a RESET is performed in a session that an earlier CLOSE has made
closing is its choice (log 29). -/
def Obligations.ResetEngineResumesTheBusFirst : Prop :=
  (∀ (tag : Byte) (line : List Level) (s : State), ItsTurn .reset tag [0] s →
    s.fen.engine = .quiet ∨ s.fen.engine = .waking →
    let resume : Handed := { what := .resume, rate := s.fen.config.rate }
    ∃ t : State, exec (.resetEngine tag 0 line) s = .next (deferReply tag t)
      ∧ t.link = s.link ∧ t.scm = s.scm ∧ t.rep = s.rep
      ∧ t.fen = { s.fen with
          watching := false, lowMeasure := 0, timer := none, settling := 0, resetPending := true }
      ∧ (s.btx.state = .idle →
          t.btx = { s.btx with state := .broadcast resume, dbde := true, heard := [], waiting := [] })
      ∧ (s.btx.state ≠ .idle → t.btx = { s.btx with waiting := [resume] })
      ∧ (∀ d, tget t.drm.drops d =
          if (tget s.drm.drops d).state = .off then tget s.drm.drops d
          else { tget s.drm.drops d with
            state := .seeking, failures := 0, due := 0, identity := none, service := false })
      ∧ t.drm.cursor.val = 23 ∧ t.drm.probe = none
      ∧ (∀ k, tget t.rst.sets k =
          { mode := (tget s.rst.sets k).mode, width := (tget s.rst.sets k).width,
            slots := Vector.replicate _ none, fill := 0, newest := 0, latest := 0, block := 0, lost := 0 }))
  ∧ ∀ (b : Handed) (line : List Level) (s : State),
    s.btx.state = .gap (.broadcast b) → s.btx.waiting = [] → s.fen.resetPending = true → s.fen.item = none →
    s.fen.engine ≠ .stopped →
    let change : EngineChange := { new := .stopped, left := s.fen.engine, cause := .reset, frame := s.fen.frame }
    ∃ t : State, exec (.broadcastGapEnd line) s = .next t
      ∧ t.fen = { Fen.initial with config := s.fen.config, ticket := s.fen.ticket }
      ∧ t.btx = { btxHear b.rate 32 (s.btx.heard ++ line) s.btx with
          state := .idle, heard := reTick b.rate s.fen.config.rate ((s.btx.heard ++ line).drop 32) }
      ∧ t.scm = s.scm ∧ t.drm = s.drm ∧ t.rst = s.rst
      ∧ t.link = linkAnswer (fun r => r == .reset) .ok [0, 0, 0, 0, 0]
          (linkAnswer (fun r => r == .halt || r == .quiet || r == .wake) .aborted [] s.link)
      ∧ t.rep.maskDrop = s.rep.maskDrop ∧ t.rep.maskService = s.rep.maskService
      ∧ t.rep.maskFrame = s.rep.maskFrame
      ∧ t.rep.dropLatches = s.rep.dropLatches ∧ t.rep.serviceLatches = s.rep.serviceLatches
      ∧ t.rep.frameLatch = s.rep.frameLatch
      ∧ ∃ tail : List Report,
          t.rep.queue.map Queued.report =
            s.rep.queue.map Queued.report ++ (abortedTickets s.fen).map .ticketDone ++ tail
          ∧ ((tail = [.engineState change 1] ∧ s.rep.engineLatch = none ∧ t.rep.engineLatch = none)
            ∨ (tail = [] ∧ t.rep.engineLatch.map EngineLatch.change = some change))

/-- RESET ALL (R20, R46, R72, R91, R105, R118, R137, R178): every block takes its values, the session goes on, the
deferred requests are answered ABORTED, and the reply carries the number of tickets removed. That a report frame on LTX
is sent to its end and counts no more is the model's reading (log 10); that a RESET is performed in a session that an
earlier CLOSE has made closing is its choice (log 29). -/
def Obligations.ResetAllClearsEveryBlock : Prop :=
  ∀ (tag : Byte) (s : State), ItsTurn .reset tag [1] s →
    ∃ u : State,
      Answers (.resetAll tag) tag .ok [1, 0, 0, 0, byteOf (ticketCount s.fen)] s
        (answerDeferred (fun _ => true) .aborted [] u)
      ∧ (∀ i, tget u.scm.entries i =
          match (tget s.scm.entries i).body with
          | some _ => { gen := (tget s.scm.entries i).gen + 1, body := none }
          | none => tget s.scm.entries i)
      ∧ (∀ k, tget u.scm.chains k = []) ∧ u.scm.schedLen = 1
      ∧ u.fen = Fen.initial ∧ u.btx = Btx.initial ∧ u.drm = Drm.initial ∧ u.rst = Rst.initial
      ∧ u.rep = Rep.initial
      ∧ u.link.session = s.link.session ∧ u.link.receiver = s.link.receiver ∧ u.link.rate = s.link.rate
      ∧ u.link.places = s.link.places ∧ u.link.outbox = s.link.outbox
      ∧ u.link.memory = [] ∧ u.link.badFrames = 0 ∧ u.link.send = .cleared
      ∧ u.link.breakHold = s.link.breakHold
      ∧ u.link.ltx = (match s.link.ltx with
          | .report q _ => .report q false
          | .reply r => .reply r
          | .idle => .idle)

/-! ### The schedule memory -/

/-- The ranges of the parameter fields of an entry and of an ad hoc item, and the worst-case cost (R2, R92); the route
of an entry (R2, R180, R181), and when it fits its set (R8). -/
def Obligations.TransactionRanges : Prop :=
  (∀ kind drop first i o retries : Byte,
    ((parseTransaction kind drop first i o retries).isSome = true ↔
      ((kind = 1 ∧ 1 ≤ i.toNat ∧ i.toNat ≤ 16 ∧ o = 0) ∨ (kind = 2 ∧ i = 0 ∧ 1 ≤ o.toNat ∧ o.toNat ≤ 16)
        ∨ (kind = 3 ∧ 1 ≤ i.toNat ∧ i.toNat ≤ 16 ∧ 1 ≤ o.toNat ∧ o.toNat ≤ 16))
      ∧ 1 ≤ drop.toNat ∧ drop.toNat ≤ 24 ∧ first.toNat ≤ 63
      ∧ first.toNat + max i.toNat o.toNat ≤ 64 ∧ retries.toNat ≤ 3)
    ∧ ∀ t, parseTransaction kind drop first i o retries = some t →
      t.kind.code = kind ∧ t.drop.val + 1 = drop.toNat ∧ t.first = first.toNat ∧ t.inCount = i.toNat
      ∧ t.outCount = o.toNat ∧ t.retries = retries.toNat
      ∧ t.cost = 162 + 20 * (o.toNat + i.toNat) ∧ 182 ≤ t.cost ∧ t.cost ≤ 802)
  ∧ (∀ (p : ParamBlock) (t : Transaction) (route : Option Route),
      parseParams p = some (t, route) ↔
        parseTransaction p.kind p.drop p.first p.inCount p.outCount p.retries = some t
        ∧ ((p.routeFlag = 0 ∧ route = none)
          ∨ (p.routeFlag = 1 ∧ p.routeOffset.toNat ≤ 15 ∧ ∃ w : Fin 16, w.val = p.routeSet.toNat
              ∧ route = some { set := w, offset := p.routeOffset.toNat })))
  ∧ ∀ (rst : Rst) (i : Nat) (route : Option Route),
      routeFits rst i route = true ↔ ∀ r, route = some r → r.offset + (tget rst.sets r.set).width ≤ i

/-- ENTRY-ADD (R9): range, route, space; then the lowest-numbered FREE index is ALLOCATED. -/
def Obligations.EntryAddCreatesAnEntry : Prop :=
  ∀ (tag : Byte) (p : ParamBlock) (s : State), ItsTurn .entryAdd tag (paramBytes p) s →
    let c := Instr.entryAdd tag p
    (parseParams p = none → Answers c tag .outOfRange [] s s)
    ∧ ∀ t route, parseParams p = some (t, route) →
      (routeFits s.rst t.inCount route = false → Answers c tag .conflict [] s s)
      ∧ (routeFits s.rst t.inCount route = true →
        ((∀ i, (tget s.scm.entries i).body ≠ none) → Answers c tag .noSpace [] s s)
        ∧ ∀ i, (tget s.scm.entries i).body = none → (∀ j, j < i → (tget s.scm.entries j).body ≠ none) →
          Answers c tag .ok [byteOf i.val, (tget s.scm.entries i).gen] s
            (s.setScm { s.scm with
              entries := (tput s.scm.entries i
                { gen := (tget s.scm.entries i).gen,
                  body := some
                    { trans := t, route := route, outputs := List.replicate t.outCount 0, done := 0, failed := 0,
                      skipped := 0, notReady := 0, last := .never, linkCount := 0 } }) }))

/-- ENTRY-SET (R10). -/
def Obligations.EntrySetReplacesTheFields : Prop :=
  ∀ (tag index gen : Byte) (p : ParamBlock) (s : State),
    ItsTurn .entrySet tag (index :: gen :: paramBytes p) s →
    let c := Instr.entrySet tag index gen p
    (127 < index.toNat → Answers c tag .outOfRange [] s s)
    ∧ ∀ i : Fin 128, i.val = index.toNat →
      ((tget s.scm.entries i).body = none ∨ (tget s.scm.entries i).gen ≠ gen → Answers c tag .stale [] s s)
      ∧ ∀ b, (tget s.scm.entries i).body = some b → (tget s.scm.entries i).gen = gen →
        (parseParams p = none → Answers c tag .outOfRange [] s s)
        ∧ ∀ t route, parseParams p = some (t, route) →
          (routeFits s.rst t.inCount route = false → Answers c tag .conflict [] s s)
          ∧ (routeFits s.rst t.inCount route = true →
            Answers c tag .ok [index, gen] s
              (s.setScm { s.scm with
                entries := (tput s.scm.entries i
                  { gen := gen,
                    body := some
                      { trans := t, route := route,
                        outputs := b.outputs.take t.outCount ++ List.replicate (t.outCount - b.outputs.length) 0,
                        done := 0, failed := 0, skipped := 0, notReady := 0, last := .never,
                        linkCount := b.linkCount } }) }))

/-- ENTRY-LOAD (R11). -/
def Obligations.EntryLoadWritesOutputs : Prop :=
  ∀ (tag index gen offset : Byte) (values : List Word) (s : State),
    ItsTurn .entryLoad tag ([index, gen, offset] ++ values.flatMap linkWord) s →
    let c := Instr.entryLoad tag index gen offset values
    (127 < index.toNat → Answers c tag .outOfRange [] s s)
    ∧ ∀ i : Fin 128, i.val = index.toNat →
      ((tget s.scm.entries i).body = none ∨ (tget s.scm.entries i).gen ≠ gen → Answers c tag .stale [] s s)
      ∧ ∀ b, (tget s.scm.entries i).body = some b → (tget s.scm.entries i).gen = gen →
        (b.trans.outCount < offset.toNat + values.length → Answers c tag .outOfRange [] s s)
        ∧ (offset.toNat + values.length ≤ b.trans.outCount → b.outputs.length = b.trans.outCount →
          ∃ outputs : List Word,
            Answers c tag .ok [] s
              (s.setScm { s.scm with
                entries := tput s.scm.entries i { gen := gen, body := some { b with outputs := outputs } } })
            ∧ outputs.length = b.trans.outCount
            ∧ ∀ k, outputs[k]? =
                if offset.toNat ≤ k ∧ k < offset.toNat + values.length then values[k - offset.toNat]?
                else b.outputs[k]?)

/-- R12: ENTRY-READ of a FREE and of an ALLOCATED entry. -/
def Obligations.EntryReadReturnsTheRecord : Prop :=
  ∀ (tag index : Byte) (s : State), ItsTurn .entryRead tag [index] s →
    let c := Instr.entryRead tag index
    (127 < index.toNat → Answers c tag .outOfRange [] s s)
    ∧ ∀ i : Fin 128, i.val = index.toNat →
      ((tget s.scm.entries i).body = none →
        Answers c tag .ok [index, 0, (tget s.scm.entries i).gen] s s)
      ∧ ∀ b, (tget s.scm.entries i).body = some b →
        let two := fun n : Nat => [byteOf n, byteOf (n / 256)]
        Answers c tag .ok
          ([index, 1, (tget s.scm.entries i).gen,
            (match b.trans.kind with | .read => 1 | .write => 2 | .exchange => 3),
            byteOf (b.trans.drop.val + 1), byteOf b.trans.first, byteOf b.trans.inCount, byteOf b.trans.outCount,
            byteOf b.trans.retries]
          ++ (match b.route with
              | some r => [1, byteOf r.set.val, byteOf r.offset]
              | none => [0, 0, 0])
          ++ two (162 + 20 * (b.trans.outCount + b.trans.inCount))
          ++ two b.done ++ two b.failed ++ two b.skipped ++ two b.notReady
          ++ [b.last.code, (match b.last with | .failed e => errorCode (some e) | _ => 0), byteOf b.linkCount]
          ++ b.outputs.flatMap fun w => [lowByte w, highByte w]) s s

/-- R13: ENTRY-FREE. -/
def Obligations.EntryFreeFreesAnEntry : Prop :=
  ∀ (tag index gen : Byte) (s : State), ItsTurn .entryFree tag [index, gen] s →
    let c := Instr.entryFree tag index gen
    (127 < index.toNat → Answers c tag .outOfRange [] s s)
    ∧ ∀ i : Fin 128, i.val = index.toNat →
      ((tget s.scm.entries i).body = none ∨ (tget s.scm.entries i).gen ≠ gen → Answers c tag .stale [] s s)
      ∧ ∀ b, (tget s.scm.entries i).body = some b → (tget s.scm.entries i).gen = gen →
        (0 < b.linkCount → Answers c tag .inUse [] s s)
        ∧ (b.linkCount = 0 →
          Answers c tag .ok [index, gen + 1] s
            (s.setScm { s.scm with entries := tput s.scm.entries i { gen := gen + 1, body := none } }))

/-- R14: CHAIN-INSERT. The frame in progress walks its own plan, which is unchanged. -/
def Obligations.ChainInsertLinksAnEntry : Prop :=
  ∀ (tag slot position index gen : Byte) (s : State), ItsTurn .chainInsert tag [slot, position, index, gen] s →
    let c := Instr.chainInsert tag slot position index gen
    (31 < slot.toNat ∨ 127 < index.toNat → Answers c tag .outOfRange [] s s)
    ∧ ∀ (k : Fin 32) (i : Fin 128), k.val = slot.toNat → i.val = index.toNat →
      let chain := tget s.scm.chains k
      ((tget s.scm.entries i).body = none ∨ (tget s.scm.entries i).gen ≠ gen → Answers c tag .stale [] s s)
      ∧ ∀ b, (tget s.scm.entries i).body = some b → (tget s.scm.entries i).gen = gen →
        (chain.length < position.toNat → Answers c tag .outOfRange [] s s)
        ∧ (position.toNat ≤ chain.length → i ∈ chain → Answers c tag .alreadyLinked [] s s)
        ∧ (position.toNat ≤ chain.length → i ∉ chain → 32 ≤ chain.length → Answers c tag .chainFull [] s s)
        ∧ (position.toNat ≤ chain.length → i ∉ chain → chain.length < 32 →
          Answers c tag .ok [byteOf (chain.length + 1)] s
            (s.setScm { s.scm with
              entries := tput s.scm.entries i { gen := gen, body := some { b with linkCount := b.linkCount + 1 } },
              chains := tput s.scm.chains k (chain.take position.toNat ++ i :: chain.drop position.toNat) }))

/-- R15: CHAIN-REMOVE. The frame in progress walks its own plan, which is unchanged. -/
def Obligations.ChainRemoveUnlinksAnEntry : Prop :=
  ∀ (tag slot index : Byte) (s : State), ItsTurn .chainRemove tag [slot, index] s →
    let c := Instr.chainRemove tag slot index
    (31 < slot.toNat ∨ 127 < index.toNat → Answers c tag .outOfRange [] s s)
    ∧ ∀ (k : Fin 32) (i : Fin 128), k.val = slot.toNat → i.val = index.toNat →
      (i ∉ tget s.scm.chains k → Answers c tag .notLinked [] s s)
      ∧ ∀ before after : List (Fin 128), tget s.scm.chains k = before ++ i :: after → i ∉ before →
        Answers c tag .ok [byteOf (before.length + after.length)] s
          (s.setScm { s.scm with
            entries := tput s.scm.entries i { tget s.scm.entries i with
              body := (tget s.scm.entries i).body.map fun b => { b with linkCount := b.linkCount - 1 } },
            chains := tput s.scm.chains k (before ++ after) })

/-- R16: CHAIN-READ. -/
def Obligations.ChainReadReturnsTheChain : Prop :=
  ∀ (tag slot : Byte) (s : State), ItsTurn .chainRead tag [slot] s →
    (31 < slot.toNat → Answers (.chainRead tag slot) tag .outOfRange [] s s)
    ∧ ∀ k : Fin 32, k.val = slot.toNat →
      Answers (.chainRead tag slot) tag .ok
        (slot :: byteOf (tget s.scm.chains k).length :: (tget s.scm.chains k).map fun i => byteOf i.val) s s

/-- R17: SCHEDULE-LENGTH, in every engine state. -/
def Obligations.ScheduleLengthSetsL : Prop :=
  ∀ (tag len : Byte) (s : State), ItsTurn .scheduleLength tag [len] s →
    (len ∉ ([1, 2, 4, 8, 16, 32] : List Byte) → Answers (.scheduleLength tag len) tag .outOfRange [] s s)
    ∧ (len ∈ ([1, 2, 4, 8, 16, 32] : List Byte) →
        Answers (.scheduleLength tag len) tag .ok [len] s (s.setScm { s.scm with schedLen := len.toNat }))

/-! ### The frame engine -/

/-- BUS-CONFIG (R24): state, range, resources; then all four values at once, with F and B in the reply. F is rounded
down: `per500us` is the bit-times in four frame periods of 125 µs. The rate codes are those of 10.2. What was heard of
the line beyond the last bus command, which is the model's own, is kept in ticks of the new rate (log 6). -/
def Obligations.BusConfigReplacesTheConfiguration : Prop :=
  ∀ (tag rate period guard settling : Byte) (s : State),
    ItsTurn .busConfig tag [rate, period, guard, settling] s →
    let c := Instr.busConfig tag rate period guard settling
    (s.fen.engine ≠ .stopped → Answers c tag .wrongState [] s s)
    ∧ (s.fen.engine = .stopped → 3 < rate.toNat → Answers c tag .outOfRange [] s s)
    ∧ ∀ (r : BusRate) (per500us : Nat), s.fen.engine = .stopped →
      (rate, r, per500us) ∈
        ([(0, .k250, 125), (1, .k500, 250), (2, .m1, 500), (3, .m2, 1000)] : List (Byte × BusRate × Nat)) →
      let len := per500us * period.toNat / 4
      let inRange := 4 ≤ period.toNat ∧ period.toNat ≤ 64 ∧ 1 ≤ settling.toNat ∧ 202 + 68 + guard.toNat ≤ len
      let budget := len - 68 - guard.toNat
      (¬ inRange → Answers c tag .outOfRange [] s s)
      ∧ (inRange → (∃ h ∈ s.fen.queue, budget < h.trans.cost) → Answers c tag .conflict [] s s)
      ∧ (inRange → (∀ h ∈ s.fen.queue, h.trans.cost ≤ budget) →
        let onBus := match s.btx.state with
          | .broadcast b | .gap (.broadcast b) => b.rate
          | .idle | .request | .wait | .answer | .gap (.attempt _) => r
        Answers c tag .ok [byteOf len, byteOf (len / 256), byteOf budget, byteOf (budget / 256)] s
          ((s.setFen { s.fen with
            config := { rate := r, period := period.toNat, guard := guard.toNat, settling := settling.toNat } }).setBtx
            { s.btx with heard := reTick s.busRate onBus s.btx.heard }))

/-- START (R27): in STOPPED the engine enters RUNNING, and the first frame start follows at once, on the line that
passed since the last bus command (R69), or after a broadcast still on the line. That the command carries that line is
the model's choice (log 6), and so is that it comes after broadcasts that wait behind that one too (log 33). -/
def Obligations.StartBeginsTheFirstFrame : Prop :=
  ∀ (tag : Byte) (line : List Level) (s : State), ItsTurn .start tag [] s →
    let c := Instr.start tag line
    (s.fen.engine = .running → Answers c tag .already [] s s)
    ∧ (s.fen.engine = .halting ∨ s.fen.engine = .quiet ∨ s.fen.engine = .waking → Answers c tag .wrongState [] s s)
    ∧ (s.fen.engine = .stopped →
      let u := reply tag .ok []
        (offerEngine { new := .running, left := .stopped, cause := .host, frame := s.fen.frame }
          (s.setFen { s.fen with jamCount := 0, engine := .running }))
      (s.btx.state = .idle →
        let seen := s.btx.heard ++ line
        exec c s = .next (frameStart (u.setBtx (btxHear s.busRate seen.length seen s.btx))))
      ∧ (s.btx.state ≠ .idle → exec c s = .next (u.setFen { u.fen with startPending := true })))

/-- HALT in every engine state (R28, R29, R149): at once with no item in progress, deferred through HALTING with
one; in WAKING the deferred WAKE requests are answered ABORTED. A QUIET that waits is carried out from STOPPED
(R142); that the HALT reply becomes ready before the waiting QUIET replies is the model's reading (log 14), and that
a RESUME that has not begun is left to be sent its choice (log 33). -/
def Obligations.HaltStopsTheEngine : Prop :=
  ∀ (tag : Byte) (s : State), ItsTurn .halt tag [] s →
    let c := Instr.halt tag
    let change := fun new left : EngineState =>
      ({ new := new, left := left, cause := .host, frame := s.fen.frame } : EngineChange)
    let stoppedFen := { s.fen with
      engine := .stopped, timer := none, plan := [], planPos := 0, stage := .idle, settling := 0,
      startPending := false, judgeDue := false }
    (s.fen.engine = .stopped → Answers c tag .ok [] s s)
    ∧ (s.fen.engine = .quiet → Answers c tag .wrongState [] s s)
    ∧ (s.fen.engine = .halting → exec c s = .next (deferReply tag s))
    ∧ (s.fen.engine = .running → s.fen.item.isSome = true →
        exec c s = .next (deferReply tag (offerEngine (change .halting .running)
          (s.setFen { s.fen with haltCause := .host, engine := .halting }))))
    ∧ (s.fen.engine = .running → s.fen.item = none →
        let skips := s.fen.stage = .periodic ∧ 0 < s.fen.skipCount
        let event : FrameSummary :=
          { slot := s.fen.slot, frame := s.fen.frame, skipped := s.fen.skipCount, jams := 0, frames := 1 }
        let u := offerEngine (change .stopped .running)
          ((if skips then offerFrame event s else s).setFen stoppedFen)
        (s.fen.quietPending = false → Answers c tag .ok [] s u)
        ∧ (s.fen.quietPending = true →
            exec c s = .next (answerDeferred (fun r => r == .quiet) .ok [] (goQuiet .host (reply tag .ok [] u)))))
    ∧ (s.fen.engine = .waking → s.fen.stage ≠ .periodic →
        Answers c tag .ok [] s (answerDeferred (fun r => r == .wake) .aborted []
          (offerEngine (change .stopped .waking) (s.setFen stoppedFen))))

/-- QUIET in every engine state (R140, R142, R143); the QUIET broadcast is handed over with the rate in force (R56):
it begins when BTX is IDLE, and waits otherwise (R51). -/
def Obligations.QuietSendsTheBusQuiet : Prop :=
  ∀ (tag : Byte) (s : State), ItsTurn .quiet tag [] s →
    let c := Instr.quiet tag
    let quietFen := { s.fen with
      engine := .quiet, timer := none, plan := [], planPos := 0, stage := .idle, settling := 0,
      quietPending := false, startPending := false, watching := false, lowMeasure := 0 }
    let b : Handed := { what := .quiet, rate := s.fen.config.rate }
    let handed := if s.btx.state = .idle then { s.btx with state := .broadcast b, dbde := true, heard := [] }
      else { s.btx with waiting := s.btx.waiting ++ [b] }
    let gone := offerEngine { new := .quiet, left := s.fen.engine, cause := .host, frame := s.fen.frame }
      ((s.setBtx handed).setFen quietFen)
    (s.fen.engine = .running → exec c s = .next (deferReply tag (s.setFen { s.fen with quietPending := true })))
    ∧ (s.fen.engine = .halting → Answers c tag .wrongState [] s s)
    ∧ (s.fen.engine = .quiet → Answers c tag .already [] s s)
    ∧ (s.fen.engine = .stopped → Answers c tag .ok [] s gone)
    ∧ (s.fen.engine = .waking →
        Answers c tag .ok [] s (answerDeferred (fun r => r == .wake) .aborted [] gone))

/-- WAKE (R146, R147); the RESUME is handed over with the rate in force (R56), and the frame timer starts when it begins
on the line. -/
def Obligations.WakeEntersWaking : Prop :=
  ∀ (tag : Byte) (s : State), ItsTurn .wake tag [] s →
    let c := Instr.wake tag
    let b : Handed := { what := .resume, rate := s.fen.config.rate }
    let handed := if s.btx.state = .idle then { s.btx with state := .broadcast b, dbde := true, heard := [] }
      else { s.btx with waiting := s.btx.waiting ++ [b] }
    (s.fen.engine = .stopped ∨ s.fen.engine = .running ∨ s.fen.engine = .halting →
      Answers c tag .wrongState [] s s)
    ∧ (s.fen.engine = .waking → exec c s = .next (deferReply tag s))
    ∧ (s.fen.engine = .quiet →
      exec c s = .next (deferReply tag
        (offerEngine { new := .waking, left := .quiet, cause := .host, frame := s.fen.frame }
          ((s.setBtx handed).setFen { s.fen with
            engine := .waking, jamCount := 0, settling := s.fen.config.settling, watching := false,
            lowMeasure := 0, timer := if s.btx.state = .idle then some 0 else none }))))

/-- SUBMIT (R94, R93, R39): range, budget, resources; then the item joins the queue under the first number after the
counter that no outstanding ticket holds. An item submitted to an empty queue in the idle tail of the ad hoc stage
is examined at once. That the command carries `line`, the bus time that has passed in that tail, is the model's choice
(log 4, log 6). -/
def Obligations.SubmitIssuesATicket : Prop :=
  ∀ (tag kind drop first i o retries force : Byte) (values : List Word) (line : List Level) (s : State),
    ItsTurn .submit tag (submitBytes kind drop first i o retries force values) s →
    let c := Instr.submit tag kind drop first i o retries force values line
    (parseTransaction kind drop first i o retries = none ∨ (force ≠ 0 ∧ force ≠ 1) →
      Answers c tag .outOfRange [] s s)
    ∧ ∀ t, parseTransaction kind drop first i o retries = some t → force = 0 ∨ force = 1 →
      (s.fen.config.budget < t.cost → Answers c tag .tooLarge [] s s)
      ∧ (t.cost ≤ s.fen.config.budget →
        (16 ≤ ticketCount s.fen ∨ 32 ≤ s.rep.queue.length + ticketCount s.fen → Answers c tag .queueFull [] s s)
        ∧ (ticketCount s.fen < 16 → s.rep.queue.length + ticketCount s.fen < 32 →
          ∃ n : Word, n ≠ s.fen.ticket ∧ n ∉ outstandingTickets s.fen
            ∧ (∀ k : Word, 0 < k → k < n - s.fen.ticket → s.fen.ticket + k ∈ outstandingTickets s.fen)
            ∧ let h : AdHoc := { ticket := n, trans := t, outputs := values, force := decide (force = 1) }
              let u := s.setFen { s.fen with queue := s.fen.queue ++ [h], ticket := n }
              let tail := s.fen.engine = .running ∧ s.fen.stage = .adHoc ∧ s.fen.item = none ∧ s.fen.judgeDue = false
                ∧ s.fen.queue = []
              let seen := s.btx.heard ++ line
              (¬ tail → Answers c tag .accepted [lowByte n, highByte n] s u)
              ∧ (tail → exec c s = .next (serveAdHoc [h]
                  (((reply tag .accepted [lowByte n, highByte n] u).setFen { u.fen with
                    timer := s.fen.timer.map (· + seen.length) }).setBtx (btxHear s.busRate seen.length seen s.btx))))))

/-- CANCEL (R102): a queued ticket is removed and ends; an in-flight one goes on; any other is not found. A head
taken away in the idle tail lets the new head be examined at once (R39). That the command carries `line`, the bus time
that has passed in that tail, is the model's choice (log 4, log 6). -/
def Obligations.CancelWithdrawsATicket : Prop :=
  ∀ (tag : Byte) (ticket : Word) (line : List Level) (s : State),
    ItsTurn .cancel tag [lowByte ticket, highByte ticket] s →
    let c := Instr.cancel tag ticket line
    let kept := s.fen.queue.filter fun h => h.ticket != ticket
    let u := s.setFen { s.fen with queue := kept }
    let tail := s.fen.engine = .running ∧ s.fen.stage = .adHoc ∧ s.fen.item = none ∧ s.fen.judgeDue = false
      ∧ s.fen.queue.head?.map AdHoc.ticket = some ticket
    let seen := s.btx.heard ++ line
    (ticket ∈ s.fen.queue.map AdHoc.ticket →
      (¬ tail → Answers c tag .cancelled [] s u)
      ∧ (tail → exec c s = .next (serveAdHoc kept
          (((reply tag .cancelled [] u).setFen { u.fen with
            timer := s.fen.timer.map (· + seen.length) }).setBtx (btxHear s.busRate seen.length seen s.btx)))))
    ∧ (ticket ∉ s.fen.queue.map AdHoc.ticket →
      (ticket ∈ outstandingTickets s.fen → Answers c tag .inFlight [] s s)
      ∧ (ticket ∉ outstandingTickets s.fen → Answers c tag .notFound [] s s))

/-! ### The drop manager -/

/-- DROP-ATTACH, DROP-DETACH, DROP-READ and DROP-CLEAR-SERVICE (R87 to R90). Drop address d is index d − 1. -/
def Obligations.DropRequests : Prop :=
  ∀ (tag drop threshold interval : Byte) (s : State),
    let attach := Instr.dropAttach tag drop threshold interval
    let detach := Instr.dropDetach tag drop
    let read := Instr.dropRead tag drop
    let clear := Instr.dropClearService tag drop
    (drop = 0 ∨ 24 < drop.toNat →
      (ItsTurn .dropAttach tag [drop, threshold, interval] s → Answers attach tag .outOfRange [] s s)
      ∧ (ItsTurn .dropDetach tag [drop] s → Answers detach tag .outOfRange [] s s)
      ∧ (ItsTurn .dropRead tag [drop] s → Answers read tag .outOfRange [] s s)
      ∧ (ItsTurn .dropClearService tag [drop] s → Answers clear tag .outOfRange [] s s))
    ∧ ∀ d : Fin 24, d.val + 1 = drop.toNat →
      let r := tget s.drm.drops d
      (ItsTurn .dropAttach tag [drop, threshold, interval] s →
        (r.state ≠ .off → Answers attach tag .already [] s s)
        ∧ (r.state = .off →
          (threshold = 0 ∨ 15 < threshold.toNat ∨ interval = 0 → Answers attach tag .outOfRange [] s s)
          ∧ (1 ≤ threshold.toNat → threshold.toNat ≤ 15 → 1 ≤ interval.toNat →
            Answers attach tag .ok [] s (s.setDrm { s.drm with
              drops := (tput s.drm.drops d
                { state := .seeking, threshold := threshold.toNat, interval := interval.toNat, failures := 0,
                  due := 0, identity := none, service := false, total := 0 }) }))))
      ∧ (ItsTurn .dropDetach tag [drop] s →
        Answers detach tag .ok
          [match r.state with | .off => 0 | .seeking => 1 | .online => 2 | .failing => 3 | .quarantined => 4] s
          (s.setDrm { s.drm with
            drops := tput s.drm.drops d
              { state := .off, threshold := 3, interval := 16, failures := 0, due := 0, identity := none,
                service := false, total := 0 },
            probe := s.drm.probe.map fun p => if p.drop = d then { p with live := false } else p }))
      ∧ (ItsTurn .dropRead tag [drop] s →
        Answers read tag .ok
          ([drop, (match r.state with | .off => 0 | .seeking => 1 | .online => 2 | .failing => 3 | .quarantined => 4),
            byteOf r.threshold, byteOf r.interval, byteOf r.failures, byteOf r.due]
          ++ (match r.identity with | some id => [1, id.kind, byteOf id.points] | none => [0, 0, 0])
          ++ [if r.service then 1 else 0, byteOf r.total, byteOf (r.total / 256), byteOf (s.drm.cursor.val + 1)])
          s s)
      ∧ (ItsTurn .dropClearService tag [drop] s →
        Answers clear tag .ok [if r.service then 1 else 0] s
          (s.setDrm { s.drm with drops := tput s.drm.drops d { r with service := false } }))

/-! ### Result sets and masks -/

/-- SET-CONFIG (R114): set, mode and width, then the routes; then the set is emptied. SET-READ (R116): in BLOCK the
samples of the partial block, oldest first; in LATEST the newest first, backwards round the ring; nothing in OFF;
the set is unchanged. -/
def Obligations.ResultSetRequests : Prop :=
  (∀ (tag set mode width : Byte) (s : State), ItsTurn .setConfig tag [set, mode, width] s →
      let c := Instr.setConfig tag set mode width
      (15 < set.toNat ∨ 2 < mode.toNat ∨ width = 0 ∨ 8 < width.toNat → Answers c tag .outOfRange [] s s)
      ∧ ∀ (k : Fin 16) (m : SetMode), k.val = set.toNat →
        m = (if mode = 0 then .off else if mode = 1 then .block else .latest) →
        mode.toNat ≤ 2 → 1 ≤ width.toNat → width.toNat ≤ 8 →
        let strands := fun i : Fin 128 => ∃ b r, (tget s.scm.entries i).body = some b ∧ b.route = some r
          ∧ r.set = k ∧ b.trans.inCount < r.offset + width.toNat
        ((∃ i, strands i) → Answers c tag .conflict [] s s)
        ∧ ((∀ i, ¬ strands i) →
          Answers c tag .ok [byteOf (setSamples (tget s.rst.sets k)).length] s
            (s.setRst {
              sets := (tput s.rst.sets k
                { mode := m, width := width.toNat, slots := Vector.replicate _ none, fill := 0, newest := 0,
                  latest := 0, block := 0, lost := 0 }) })))
  ∧ (∀ (tag set : Byte) (s : State), ItsTurn .setRead tag [set] s →
      (15 < set.toNat → Answers (.setRead tag set) tag .outOfRange [] s s)
      ∧ ∀ k : Fin 16, k.val = set.toNat →
        let r := tget s.rst.sets k
        ∀ held : List Sample,
          (match r.mode with
           | .off => held = []
           | .block => held.length = r.fill ∧ r.fill ≤ 3
               ∧ ∀ j : Fin 4, j.val < r.fill → tget r.slots j = held[j.val]?
           | .latest => held.length = r.latest ∧ r.latest ≤ 4
               ∧ ∀ j : Fin 4, j.val < r.latest → tget r.slots (r.newest - j) = held[j.val]?) →
          Answers (.setRead tag set) tag .ok
            ([set, r.mode.code, byteOf r.width, lowByte r.block, highByte r.block, byteOf r.lost, byteOf held.length]
            ++ held.flatMap fun x =>
              [byteOf x.entry.val, lowByte x.frame, highByte x.frame,
               (if x.fault then 1 else 0) + (if x.service then 2 else 0)]
              ++ x.values.flatMap fun w => [lowByte w, highByte w]) s s)

/-- EVENT-MASK (R135): all masks at once, then one offering of the classes it changed from MASKED to UNMASKED. Report
admission and latches: the admission test (R125); TICKET-DONE is always admitted (R124); the paths of a maskable event
(R128) and of an ENGINE-STATE (R132); how a latch is set and merged (R129 to R132); an offering, its order, and its stop
at the first refusal (R133). -/
def Obligations.EventMaskSetsTheMasks : Prop :=
  (∀ (tag dm sm fm : Byte) (s : State), ItsTurn .eventMask tag [dm, sm, fm] s →
    let c := Instr.eventMask tag dm sm fm
    (1 < dm.toNat ∨ 1 < sm.toNat ∨ 1 < fm.toNat → Answers c tag .outOfRange [] s s)
    ∧ (dm.toNat ≤ 1 → sm.toNat ≤ 1 → fm.toNat ≤ 1 →
      let mask := fun b : Byte => if b = 1 then Mask.unmasked else .masked
      let out := offering (s.link.session.state != .closed) (ticketCount s.fen)
        (latchOrder false (s.rep.maskDrop == .masked && dm == 1) (s.rep.maskService == .masked && sm == 1)
          (s.rep.maskFrame == .masked && fm == 1))
        { s.rep with maskDrop := mask dm, maskService := mask sm, maskFrame := mask fm }
      Answers c tag .ok [dm, sm, fm, byteOf out.2] s (s.setRep out.1)))
  ∧ (∀ (s : State) (d : Fin 24) (c : EngineChange) (x : DropChange) (f : FrameSummary) (r : TicketDone),
      let p := s.rep
      let ok := s.link.session.state ≠ .closed ∧ p.queue.length + ticketCount s.fen < 32
      let join := fun r : Report => s.setRep { p with
        queue := p.queue ++ [{ seq := p.nextSeq, report := r }], nextSeq := p.nextSeq + 1 }
      let engine := fun n : Nat => s.setRep { p with engineLatch := some { change := c, count := n } }
      let drop := fun n : Nat => s.setRep { p with
        dropLatches := tput p.dropLatches d (some { change := x, count := n }) }
      let frame := fun l : FrameSummary => s.setRep { p with frameLatch := some l }
      offerTicketDone r s = join (.ticketDone r)
      ∧ (p.engineLatch = none → ok → offerEngine c s = join (.engineState c 1))
      ∧ (p.engineLatch = none → ¬ ok → offerEngine c s = engine 1)
      ∧ (∀ l, p.engineLatch = some l → offerEngine c s = engine (min (l.count + 1) 255))
      ∧ (tget p.dropLatches d = none → p.maskDrop = .unmasked → ok → offerDrop d x s = join (.dropState d x 1))
      ∧ (tget p.dropLatches d = none → p.maskDrop = .masked ∨ ¬ ok → offerDrop d x s = drop 1)
      ∧ (∀ l, tget p.dropLatches d = some l → offerDrop d x s = drop (min (l.count + 1) 255))
      ∧ (tget p.serviceLatches d = false → p.maskService = .unmasked → ok → offerService d s = join (.service d))
      ∧ (tget p.serviceLatches d = false → p.maskService = .masked ∨ ¬ ok →
          offerService d s = s.setRep { p with serviceLatches := tput p.serviceLatches d true })
      ∧ (tget p.serviceLatches d = true → offerService d s = s)
      ∧ (p.frameLatch = none → p.maskFrame = .unmasked → ok → offerFrame f s = join (.frameEvent f))
      ∧ (p.frameLatch = none → p.maskFrame = .masked ∨ ¬ ok → offerFrame f s = frame f)
      ∧ (∀ l, p.frameLatch = some l → offerFrame f s = frame
          { slot := f.slot, frame := f.frame, skipped := min (l.skipped + f.skipped) 65535,
            jams := min (l.jams + f.jams) 255, frames := min (l.frames + f.frames) 65535 }))
  ∧ (∀ (isOpen : Bool) (t : Nat) (id : LatchId) (ids : List LatchId) (p : Rep),
      let held : Option Report := match id with
        | .engine => p.engineLatch.map fun l => .engineState l.change l.count
        | .drop d => (tget p.dropLatches d).map fun l => .dropState d l.change l.count
        | .service d => if tget p.serviceLatches d then some (.service d) else none
        | .frame => p.frameLatch.map .frameEvent
      let cleared : Rep := match id with
        | .engine => { p with engineLatch := none }
        | .drop d => { p with dropLatches := tput p.dropLatches d none }
        | .service d => { p with serviceLatches := tput p.serviceLatches d false }
        | .frame => { p with frameLatch := none }
      offering isOpen t [] p = (p, 0)
      ∧ (held = none → offering isOpen t (id :: ids) p = offering isOpen t ids p)
      ∧ (∀ r, held = some r → isOpen = true → p.queue.length + t < 32 →
          let next := offering isOpen t ids { cleared with
            queue := p.queue ++ [{ seq := p.nextSeq, report := r }], nextSeq := p.nextSeq + 1 }
          offering isOpen t (id :: ids) p = (next.1, next.2 + 1))
      ∧ (held.isSome = true → isOpen = false ∨ 32 ≤ p.queue.length + t →
          offering isOpen t (id :: ids) p = (p, 0)))
  ∧ ∀ e d s f : Bool, latchOrder e d s f =
      (if e then [.engine] else []) ++ (if d then (List.finRange 24).map .drop else [])
      ++ (if s then (List.finRange 24).map .service else []) ++ (if f then [.frame] else [])

/-! ### Period boundaries and the wake pulse -/

/-- FRAME_START (R32, R33, R34, R78): the counter, the slot n mod L, the jam record; a clean frame copies its plan and
sends the beacon, a jammed one is counted and raises FRAME-EVENT, and the third jammed frame in a row stops the
engine with cause JAM. The jam record holds the line grain by grain, eighths of a microsecond: that of the line given, and
before it what it held (R68); the 8 bit-times that decide (R69) are those of the rate in force then, which is the model's
reading (log 31). That a boundary that cannot fall changes nothing is the model's choice (log 2). -/
def Obligations.FrameStartBeginsAFrame : Prop :=
  let grains : List (BusRate × Nat) := [(.k250, 8), (.k500, 4), (.m1, 2), (.m2, 1)]
  (∀ (rate : BusRate) (per : Nat), (rate, per) ∈ grains → ∀ (n : Nat) (l : List Level) (x : Btx),
    btxHear rate n l x = { x with jamRecord := (btxHear rate n l x).jamRecord, heard := l.drop n }
    ∧ ∀ k, k < 256 → (btxHear rate n l x).jamRecord.getLsbD k =
        if k < n * per then decide (l.getD (n - 1 - k / per) .high = .low) else x.jamRecord.getLsbD (k - n * per))
  ∧ (∀ s : State, s.busRate = match s.btx.state with
      | .broadcast b | .gap (.broadcast b) => b.rate
      | .idle | .request | .wait | .answer | .gap (.attempt _) => s.fen.config.rate)
  ∧ ∀ (line : List Level) (s : State),
    let falls := s.fen.timer.isSome = true ∧ s.fen.item = none ∧ s.btx.state = .idle ∧ s.btx.waiting = []
      ∧ s.fen.judgeDue = false ∧ s.fen.engine = .running ∧ s.fen.quietPending = false
    let seen := s.btx.heard ++ line
    let heard := btxHear s.busRate seen.length seen s.btx
    (¬ falls → exec (.frameStart line) s = .next s)
    ∧ (falls → isSchedLen s.scm.schedLen = true → ∀ per, (s.fen.config.rate, per) ∈ grains →
      let n := s.fen.frame + 1
      ∃ t : State, exec (.frameStart line) s = .next t
        ∧ t.fen.frame = n ∧ t.fen.slot.val = n.toNat % s.scm.schedLen ∧ t.fen.skipCount = 0
        ∧ t.fen.queue = s.fen.queue ∧ t.fen.ticket = s.fen.ticket ∧ t.fen.config = s.fen.config
        ∧ t.link = s.link ∧ t.scm = s.scm ∧ t.rst = s.rst
        ∧ t.drm.cursor = s.drm.cursor ∧ t.drm.probe = s.drm.probe
        ∧ (∀ d, tget t.drm.drops d =
            if (tget s.drm.drops d).state = .quarantined then
              { tget s.drm.drops d with due := (tget s.drm.drops d).due - 1 }
            else tget s.drm.drops d)
        ∧ ((∀ k, k < 32 * per → heard.jamRecord.getLsbD k = false) →
          t.fen.engine = .running ∧ t.fen.timer = some 0 ∧ t.fen.jamCount = 0 ∧ t.fen.planPos = 0
          ∧ t.fen.plan = (tget s.scm.chains t.fen.slot).map
              (fun i => { index := i, gen := (tget s.scm.entries i).gen })
          ∧ t.fen.stage = .beacon ∧ t.rep = s.rep
          ∧ t.btx = { heard with
              state := .broadcast { what := .beacon false n, rate := s.fen.config.rate }, dbde := true, heard := [] })
        ∧ ((∃ k, k < 32 * per ∧ heard.jamRecord.getLsbD k = true) →
          let event : FrameSummary := { slot := t.fen.slot, frame := n, skipped := 0, jams := 1, frames := 1 }
          t.fen.jamCount = s.fen.jamCount + 1 ∧ t.fen.plan = []
          ∧ t.btx = heard
          ∧ (s.fen.jamCount < 2 → t.fen.engine = .running ∧ t.fen.timer = some 0
              ∧ t.rep = repFrame s.admits event s.rep)
          ∧ (2 ≤ s.fen.jamCount → t.fen.engine = .stopped ∧ t.fen.timer = none
              ∧ t.rep =
                let p := repFrame s.admits event s.rep
                repEngine (Machine.admits s.link.session.isOpen (ticketCount s.fen) p)
                  { new := .stopped, left := .running, cause := .jam, frame := n } p)))

/-- QUIET_BOUNDARY (R141) and SETTLING_BOUNDARY (R148): the counter is held, the jam record is not consulted; the
quiet boundary sends QUIET and enters QUIET, answering the waiting QUIET requests; a settling boundary sends a
settling beacon, or ends the settling: RUNNING, the WAKE requests answered, and a frame start. -/
def Obligations.QuietAndSettlingBoundaries : Prop :=
  ∀ (line : List Level) (s : State),
    s.fen.timer.isSome = true → s.fen.item = none → s.btx.state = .idle → s.btx.waiting = [] →
    s.fen.judgeDue = false →
    let seen := s.btx.heard ++ line
    let rate := s.fen.config.rate
    (s.fen.engine = .running → s.fen.quietPending = true →
      exec .quietBoundary s = .next (answerDeferred (fun r => r == .quiet) .ok []
        (offerEngine { new := .quiet, left := .running, cause := .host, frame := s.fen.frame }
          ((s.setBtx { s.btx with
              state := .broadcast { what := .quiet, rate := rate }, dbde := true, heard := [] }).setFen { s.fen with
            engine := .quiet, timer := none, plan := [], planPos := 0, stage := .idle, settling := 0,
            quietPending := false, startPending := false, watching := false, lowMeasure := 0 }))))
    ∧ (s.fen.engine = .waking → 0 < s.fen.settling →
      exec (.settlingBoundary line) s = .next
        ((s.setFen { s.fen with settling := s.fen.settling - 1, timer := some 0 }).setBtx
          { btxHear s.busRate seen.length seen s.btx with
            state := .broadcast { what := .beacon true s.fen.frame, rate := rate }, dbde := true, heard := [] }))
    ∧ (s.fen.engine = .waking → s.fen.settling = 0 →
      let u := answerDeferred (fun r => r == .wake) .ok []
        (offerEngine { new := .running, left := .waking, cause := .settled, frame := s.fen.frame }
          (s.setFen { s.fen with engine := .running }))
      exec (.settlingBoundary line) s = .next (frameStart (u.setBtx (btxHear s.busRate seen.length seen s.btx))))

/-- WAKE_PULSE (R145, R147): a low of 16 bit-times without a break, what was measured before included, wakes the engine
as soon as it is recognised; a shorter one goes on or is disregarded; nothing is measured but in QUIET while the monitor
watches. `pulse k`: after `k` ticks of the line it has been low for 16 bit-times. That the command carries the line, and
so a shorter low too, is the model's choice (log 8). -/
def Obligations.WakePulseWakesTheEngine : Prop :=
  ∀ (line : List Level) (s : State),
    let watches := s.fen.engine = .quiet ∧ s.fen.watching = true
    let seen := s.btx.heard ++ line
    let lowFrom := fun j k : Nat => ∀ x, j ≤ x → x < k → seen.getD x .high = .low
    let pulse := fun k : Nat => 1 ≤ k ∧ k ≤ seen.length
      ∧ ((lowFrom 0 k ∧ 64 ≤ s.fen.lowMeasure + k) ∨ ∃ j, lowFrom j k ∧ 64 ≤ k - j)
    (¬ watches → exec (.wakePulse line) s = .next s)
    ∧ (watches → (∀ k, ¬ pulse k) → ∃ m, exec (.wakePulse line) s = .next
        ((s.setBtx (btxHear s.busRate seen.length seen s.btx)).setFen { s.fen with lowMeasure := m })
        ∧ (lowFrom 0 seen.length → m = s.fen.lowMeasure + seen.length)
        ∧ (∀ j, j < seen.length → seen.getD j .high = .high → lowFrom (j + 1) seen.length →
            m = seen.length - 1 - j))
    ∧ (watches → s.btx.state = .idle → ∀ k, pulse k → (∀ j, j < k → ¬ pulse j) →
      exec (.wakePulse line) s = .next
        (offerEngine { new := .waking, left := .quiet, cause := .wakePulse, frame := s.fen.frame }
          ((s.setBtx { btxHear s.busRate k seen s.btx with
              state := .broadcast { what := .resume, rate := s.fen.config.rate }, dbde := true, heard := [] }).setFen
            { s.fen with
              engine := .waking, jamCount := 0, settling := s.fen.config.settling, watching := false,
              lowMeasure := 0, timer := some 0 })))

/-! ### The drop bus -/

/-- BROADCAST_FRAME_END and BROADCAST_GAP_END (R50, R51, R54, R68): 60 bit-times, which count as idle, DBDE released,
then 8 more of the line and BTX is IDLE: a waiting broadcast begins, and with the last waiting RESUME of a WAKE the frame
timer starts (R147); else the wake monitor watches after a QUIET (R145), a START that waited begins its frame (R27), and
a walked frame goes on to its periodic stage (R35). That several waiting broadcasts are sent in the order handed over is
the model's reading (log 23), and so is that a START that waited begins with the quiet boundary when a QUIET was taken
meanwhile (log 24); that its first boundary comes after the gap of the last broadcast that waits is its choice (log 33).
Times are in ticks, a quarter of a bit-time at the broadcast's rate. The line beyond the gap is kept
in ticks of the rate in force: a tick is low where a low tick of the other rate overlaps it (the model's own, log 6).
What BTX drives is the six bytes of the broadcast, with the parameter byte of a beacon (R54 to R56, R184); in the states
in which it releases the line it drives none. -/
def Obligations.BroadcastsEndAndTheFrameGoesOn : Prop :=
  (∀ (b : Handed) (x : Btx), x.state = .broadcast b →
    let two := fun w : Word => [(w >>> 8).setWidth 8, w.setWidth 8]
    let covered : List Byte := match b.what with
      | .beacon settling n => [0, 0x08, BitVec.ofNat 8 (n.toNat % 128 + if settling then 128 else 0)]
      | .quiet => [0, 0x09, 0]
      | .resume => [0, 0x0A, 0]
    busBytes x = [0x5A] ++ covered ++ two (busCheck covered) ∧ 10 * (busBytes x).length = 60)
  ∧ (∀ x : Btx, x.state ≠ .request → (∀ b, x.state ≠ .broadcast b) → busBytes x = [])
  ∧ ([BusRate.k250, .k500, .m1, .m2].map BusRate.grains = [8, 4, 2, 1])
  ∧ (∀ (old new : BusRate) (line : List Level) (k : Nat),
    reTick old old line = line
    ∧ ((reTick old new line).getD k .high = .low ↔ ∃ j, line.getD j .high = .low
        ∧ j * old.grains < (k + 1) * new.grains ∧ k * new.grains < (j + 1) * old.grains))
  ∧ ∀ (b : Handed) (line : List Level) (s : State),
    (s.btx.state = .broadcast b →
      exec .broadcastFrameEnd s = .next
        ((s.setFen { s.fen with timer := s.fen.timer.map (· + 4 * 60) }).setBtx
          { s.btx with
            state := .gap (.broadcast b), dbde := false,
            jamRecord := s.btx.jamRecord <<< (4 * 60 * b.rate.grains) }))
    ∧ (s.btx.state = .gap (.broadcast b) →
      let fen := { s.fen with timer := s.fen.timer.map (· + 4 * 8) }
      let seen := s.btx.heard ++ line
      let u := (s.setFen fen).setBtx { btxHear b.rate (4 * 8) seen s.btx with
        state := .idle, heard := reTick b.rate s.fen.config.rate (seen.drop (4 * 8)) }
      (∀ b' rest, s.btx.waiting = b' :: rest →
        let starts := b'.what = .resume ∧ rest = [] ∧ s.fen.engine = .waking ∧ s.fen.resetPending = false
        exec (.broadcastGapEnd line) s = .next
          ((u.setFen (if starts then { fen with timer := some 0 } else fen)).setBtx
            { u.btx with state := .broadcast b', dbde := true, heard := [], waiting := rest }))
      ∧ (s.btx.waiting = [] → s.fen.resetPending = false →
        (b.what = .quiet → s.fen.engine = .quiet →
          exec (.broadcastGapEnd line) s = .next (u.setFen { fen with watching := true, lowMeasure := 0 }))
        ∧ (s.fen.engine = .running → s.fen.startPending = true → s.fen.quietPending = false →
          exec (.broadcastGapEnd line) s = .next (frameStart u))
        ∧ (s.fen.engine = .running → s.fen.startPending = false → s.fen.stage = .beacon →
          exec (.broadcastGapEnd line) s = .next
            (walkPeriodic (s.fen.plan.drop s.fen.planPos) (u.setFen { fen with stage := .periodic })))
        ∧ (s.fen.engine = .running → s.fen.startPending = true → s.fen.quietPending = true →
          exec (.broadcastGapEnd line) s = .next (Machine.quietBoundary u))
        ∧ (s.fen.engine = .stopped ∨ s.fen.engine = .waking → exec (.broadcastGapEnd line) s = .next u)))

/-- REQUEST_FRAME_END, ANSWER_START_BIT and ANSWER_DEADLINE (R49, R50, R52, R58, R64): the request of 10·(8 + 2o)
bit-times ends and DBDE is released; an answer may begin up to 24 bit-times later, with the first fall after which the
line is still low at the middle of the bit-time, or a low at the end of the request itself; with none by the deadline the
outcome is NO_ANSWER and the gap begins. `start n`: a start bit begins at tick `n`, a quarter of a bit-time each; which
level is the one at the middle is the model's choice (log 7), and so is that a command whose occasion is absent, the two
outside WAIT among them, changes nothing (log 2). What BTX drives in REQUEST is the frame of the capture (R52, R184),
with its check (R185), the most significant byte of a value first. -/
def Obligations.RequestIsSentAndTheAnswerAwaited : Prop :=
  (∀ (c : Capture) (x : Btx), x.state = .request → x.capture = some c →
    let two := fun w : Word => [(w >>> 8).setWidth 8, w.setWidth 8]
    let command : Byte := match c.cmd with | .read => 1 | .write => 2 | .exchange => 3 | .probe => 4
    let covered := [byteOf (c.drop.val + 1), command, byteOf c.first, byteOf c.inCount, byteOf c.outCount]
      ++ c.outputs.flatMap two
    busBytes x = [0x5A] ++ covered ++ two (busCheck covered)
    ∧ (c.outputs.length = c.outCount → (busBytes x).length = 8 + 2 * c.outCount))
  ∧ (∀ bytes : List Byte,
    let shift := fun r : Word => if r.getLsbD 15 then (r <<< 1) ^^^ (0x8BB7 : Word) else r <<< 1
    busCheck bytes = bytes.foldl
      (fun (r : Word) (b : Byte) =>
        (List.range 8).foldl (fun r _ => shift r) (r ^^^ ((b.setWidth 16 : Word) <<< 8))) 0)
  ∧ ∀ (line : List Level) (c : Capture) (s : State),
    (s.btx.state = .request → s.btx.capture = some c →
      exec .requestFrameEnd s = .next
        ((s.setFen { s.fen with timer := s.fen.timer.map (· + 4 * (10 * (8 + 2 * c.outCount))) }).setBtx
          { s.btx with
            state := .wait, dbde := false, rx := { startAt := none, bytes := [], endAt := none }, jamRecord := 0 }))
    ∧ (s.btx.state = .wait →
      let seen := s.btx.heard ++ line
      let level := fun k : Nat => seen.getD k .high
      let start := fun n : Nat => (n = 0 ∨ level (n - 1) = .high)
        ∧ level n = .low ∧ level (n + 1) = .low ∧ level (n + 2) = .low
      (∀ n, n ≤ 4 * 24 → start n → (∀ m, m < n → ¬ start m) →
        exec (.answerStartBit line) s = .next
          ((s.setFen { s.fen with timer := s.fen.timer.map (· + n) }).setBtx
            { btxHear s.busRate n seen s.btx with
              state := .answer, rx := { startAt := some n, bytes := [], endAt := none } })
        ∧ exec (.answerDeadline line) s = .next s)
      ∧ ((∀ n, n ≤ 4 * 24 → ¬ start n) →
        exec (.answerDeadline line) s = .next
          ((s.setFen { s.fen with timer := s.fen.timer.map (· + 4 * 24) }).setBtx
            { btxHear s.busRate (4 * 24) seen s.btx with state := .gap (.attempt (.error .noAnswer)) })
        ∧ exec (.answerStartBit line) s = .next s))
    ∧ (s.btx.state ≠ .wait → exec (.answerStartBit line) s = .next s ∧ exec (.answerDeadline line) s = .next s)

/-- ANSWER_END (R49, R58 to R61, R184): how an answer ends, and that it is judged. A byte is the levels at the middles of
its bit-times; a stop bit sampled low is a framing error. The answer ends when the line has stayed idle for 2 bit-times
after a stop bit; a byte that has begun by the limit and not ended by it overruns, and so does a line low at the limit; a
low that goes on after a stop bit is no idle, and a low shorter than half a bit-time is none. A conforming answer sent
back to back, of an address `a` and status `st`, is judged OK or DROP_FAULT with its values when the address is the
capture's, and WRONG_DROP otherwise; its SERVICE flag is handed over when it is valid. `sent` is `first` and further
bytes, each after an idle of less than 2 bit-times. Times are in ticks, a quarter of a bit-time, and the levels at a
moment are those from it on (the model's choice, log 7); an idle end at the limit itself is taken, whatever the line does
then (log 28); and the answer ends with its last stop bit also where a low after it puts the idle end later than the gap
(log 32). -/
def Obligations.AnswerIsJudged : Prop :=
  ∀ (c : Capture) (line : List Level) (s : State), s.btx.state = .answer → s.btx.capture = some c →
    let limit := 4 * (10 * (5 + 2 * c.inCount))
    let seen := s.btx.heard ++ line
    let t := takeAnswer c.inCount seen
    let idle := fun n : Nat => List.replicate n Level.high
    let after := fun (r : AttemptResult) (bytes : List Byte) (n : Nat) =>
      (s.setFen { s.fen with timer := s.fen.timer.map (· + n) }).setBtx
        { btxHear s.busRate n seen s.btx with
          state := .gap (.attempt r), rx := { s.btx.rx with bytes := bytes, endAt := some n } }
    (t.endAt ≤ limit
      ∧ exec (.answerEnd line) s = .next (handService c.drop (judgeAnswer c t)
          (after (judgeAnswer c t) (t.bytes.map Prod.fst) t.endAt)))
    ∧ (∀ (l rest : List Level), l.length = 40 → ∃ (b : Byte) (framing : Bool),
        takeAnswer c.inCount (l ++ idle 8 ++ rest) = { bytes := [(b, framing)], overran := false, endAt := 40 }
        ∧ framing = decide (l.getD 38 .high = .low)
        ∧ ∀ k, k < 8 → b.getLsbD k = decide (l.getD (4 * k + 6) .high = .high))
    ∧ (∀ (first : Byte) (more : List (Nat × Byte)) (total : Nat), (∀ x ∈ more, x.1 < 8) →
        total = 40 + (more.map fun x => x.1 + 40).sum → total ≤ limit →
        let sent := characterLine first false ++ more.flatMap fun x => idle x.1 ++ characterLine x.2 false
        let got := (first, false) :: more.map fun x => (x.2, false)
        (∀ rest, takeAnswer c.inCount (sent ++ idle 8 ++ rest)
            = { bytes := got, overran := false, endAt := total })
        ∧ (∀ (n : Nat) (b : Byte) (framing : Bool) (rest : List Level),
            n < 8 → total + n ≤ limit → limit < total + n + 40 →
            takeAnswer c.inCount (sent ++ idle n ++ characterLine b framing ++ rest)
              = { bytes := got, overran := true, endAt := limit })
        ∧ (∀ (n k : Nat) (b : Byte) (rest : List Level),
            n < 8 → total + n + 40 ≤ limit → limit < total + n + 40 + k →
            takeAnswer c.inCount (sent ++ idle n ++ characterLine b true ++ List.replicate k .low ++ rest)
              = { bytes := got ++ [(b, true)], overran := true, endAt := limit })
        ∧ (∀ (n k m : Nat) (b b' : Byte) (rest : List Level),
            n < 8 → 1 ≤ m → m < 8 → total + n + 40 + k + m + 40 ≤ limit →
            takeAnswer c.inCount (sent ++ idle n ++ characterLine b true ++ List.replicate k .low ++ idle m
                ++ characterLine b' false ++ idle 8 ++ rest)
              = { bytes := got ++ [(b, true), (b', false)], overran := false,
                  endAt := total + n + 40 + k + m + 40 })
        ∧ (∀ (n k : Nat) (b : Byte) (rest : List Level), n < 8 → total + n + 40 + k + 8 ≤ limit →
            takeAnswer c.inCount (sent ++ idle n ++ characterLine b true ++ List.replicate k .low ++ idle 8 ++ rest)
              = { bytes := got ++ [(b, true)], overran := false, endAt := total + n + 40 })
        ∧ (∀ (n k : Nat) (rest : List Level), n < 8 → k ≤ 2 → total + n + k + 1 ≤ limit →
            takeAnswer c.inCount (sent ++ idle n ++ List.replicate k .low ++ idle 1 ++ rest)
              = takeAnswer c.inCount (sent ++ idle (n + k + 1) ++ rest)))
    ∧ ∀ (addr st : Byte) (values : List Word), values.length = c.inCount → values.length ≤ 16 →
        let bytes := answerFrame addr st values
        (seen = frameLine bytes ∨ ∃ rest, seen = frameLine bytes ++ .high :: rest) →
        (addr = dropByte c.drop →
          exec (.answerEnd line) s = .next (serviceHandover c.drop (st.getLsbD 1)
            (after (.valid (st.getLsbD 0) (st.getLsbD 1) values) bytes limit)))
        ∧ (addr ≠ dropByte c.drop → exec (.answerEnd line) s = .next (after (.error .wrongDrop) bytes limit))

/-- The tests of the judgement in their order (R59): each holds when none before it did. `t` is what was received:
bytes with their framing errors, and whether the answer overran. -/
def Obligations.JudgementTestsInOrder : Prop :=
  ∀ (c : Capture) (t : Taken),
    let bytes := t.bytes.map Prod.fst
    let n := bytes.length - 2
    let nin := (bytes.getD 2 0).toNat
    let check := wordFrom (bytes.getD n 0) (bytes.getD (n + 1) 0)
    (t.overran = true → judgeAnswer c t = .error .badLength)
    ∧ (t.overran = false →
      (bytes.length < 5 → judgeAnswer c t = .error .badLength)
      ∧ (5 ≤ bytes.length →
        ((∃ x ∈ t.bytes, x.2 = true) → judgeAnswer c t = .error .badCheck)
        ∧ ((∀ x ∈ t.bytes, x.2 = false) →
          (busCheck (bytes.take n) ≠ check → judgeAnswer c t = .error .badCheck)
          ∧ (busCheck (bytes.take n) = check →
            (bytes.getD 0 0 ≠ byteOf (c.drop.val + 1) → judgeAnswer c t = .error .wrongDrop)
            ∧ (bytes.getD 0 0 = byteOf (c.drop.val + 1) →
              (bytes.length ≠ 5 + 2 * nin → judgeAnswer c t = .error .badLength)
              ∧ (bytes.length = 5 + 2 * nin →
                (nin ≠ c.inCount → judgeAnswer c t = .error .badLength)
                ∧ (nin = c.inCount → ∃ values : List Word, values.length = c.inCount
                  ∧ judgeAnswer c t =
                    .valid ((bytes.getD 1 0).getLsbD 0) ((bytes.getD 1 0).getLsbD 1) values
                  ∧ ∀ k, k < c.inCount →
                    values[k]? = some (wordFrom (bytes.getD (3 + 2 * k) 0) (bytes.getD (4 + 2 * k) 0)))))))))

/-- ATTEMPT_END (R42, R62, R66): after a retryable error the next attempt starts at once from the same capture when
fewer than retries + 1 attempts were used and the worst case fits; otherwise, and after a valid answer, the item ends:
the capture is discarded, the outcome goes to its source's hand-offs (R44, R99, R100, R101; a ticket that the session
end removed has no TICKET-DONE, R106), and the walk goes on, or HALTING ends: STOPPED, the HALT requests answered, a
waiting QUIET carried out (R28, R142). With `held` the judgement of the next item is due, and a further ATTEMPT_END makes
it; when the item was that of the plan's last pair, the periodic stage has ended with it, and the FRAME-EVENT of its skips
is raised (R35, R45); a HALT taken between the two finds no item in progress, and the next item is not started (R28). That the operand says
which comes first is the model's choice (log 17), and that HALT is answered before QUIET its reading (log 14). -/
def Obligations.AttemptEndDecidesTheRetry : Prop :=
  (∀ (it : Item) (c : Capture) (r : AttemptResult) (now : Nat) (line : List Level) (held : Bool) (s : State),
    s.btx.state = .gap (.attempt r) → s.fen.item = some it → s.btx.capture = some c → s.fen.timer = some now →
    let seen := s.btx.heard ++ line
    let fen := { s.fen with timer := some (now + 4 * 8) }
    let u := (s.setFen fen).setBtx { btxHear s.busRate (4 * 8) seen s.btx with state := .idle }
    let fits := 4 * (162 + 20 * (c.outCount + c.inCount)) + (now + 4 * 8) ≤ 4 * s.fen.config.guardStart
    let used := it.retries + 1 ≤ it.attempts
    (∀ e, r = .error e → ¬ used → fits →
      exec (.attemptEnd line held) s = .next
        ((s.setFen { fen with item := some { it with attempts := it.attempts + 1, lastError := some e } }).setBtx
          { u.btx with
            state := .request, dbde := true, capture := some c, heard := [],
            rx := { startAt := none, bytes := [], endAt := none } }))
    ∧ ((∃ e, r = .error e ∧ (used ∨ ¬ fits)) ∨ (∃ f v x, r = .valid f v x) →
      let clear := fun t : State =>
        (t.setFen { t.fen with item := none }).setBtx { t.btx with capture := none }
      let ok := (match r with | .valid _ _ _ => true | .error _ => false)
      ∃ t : State,
        (∀ p, it.source = .periodic p → t = clear (recordPeriodic p c.drop r u))
        ∧ (it.source = .probe → t = clear (probeOutcome r u))
        ∧ (∀ n, it.source = .adHoc n false → t = clear (dropOutcome c.drop ok u))
        ∧ (∀ n, it.source = .adHoc n true →
            let w := clear (dropOutcome c.drop ok u)
            let done : TicketDone := match r with
              | .valid fault service values =>
                { ticket := n, outcome := if fault then .dropFault else .ok, lastError := it.lastError,
                  attempts := it.attempts, frame := s.fen.frame, flags := some (fault, service), values := values }
              | .error e =>
                { ticket := n, outcome := .failed, lastError := some e, attempts := it.attempts,
                  frame := s.fen.frame, flags := none, values := [] }
            t = w.setRep { w.rep with
              queue := w.rep.queue ++ [{ seq := w.rep.nextSeq, report := .ticketDone done }],
              nextSeq := w.rep.nextSeq + 1 })
        ∧ t.fen = { fen with item := none }
        ∧ (s.fen.engine = .running → held = false →
          (s.fen.stage = .periodic →
            exec (.attemptEnd line held) s = .next (walkPeriodic (s.fen.plan.drop s.fen.planPos) t))
          ∧ (s.fen.stage = .probe ∨ s.fen.stage = .adHoc → exec (.attemptEnd line held) s = .next
              (serveAdHoc s.fen.queue (t.setFen { t.fen with stage := .adHoc }))))
        ∧ (s.fen.engine = .running → held = true →
          let ended := s.fen.stage = .periodic ∧ s.fen.plan.drop s.fen.planPos = []
          let event : FrameSummary :=
            { slot := s.fen.slot, frame := s.fen.frame, skipped := s.fen.skipCount, jams := 0, frames := 1 }
          (¬ ended → exec (.attemptEnd line held) s = .next (t.setFen { t.fen with judgeDue := true }))
          ∧ (ended → exec (.attemptEnd line held) s = .next
              ((if 0 < s.fen.skipCount then offerFrame event t else t).setFen
                { t.fen with stage := .periodicEnded, judgeDue := true })))
        ∧ (s.fen.engine = .halting →
            let skips := s.fen.stage = .periodic ∧ 0 < s.fen.skipCount
            let event : FrameSummary :=
              { slot := s.fen.slot, frame := s.fen.frame, skipped := s.fen.skipCount, jams := 0, frames := 1 }
            let stopped := answerDeferred (fun r => r == .halt) .ok []
              (offerEngine { new := .stopped, left := .halting, cause := s.fen.haltCause, frame := s.fen.frame }
                ((if skips then offerFrame event t else t).setFen { t.fen with
                  engine := .stopped, timer := none, plan := [], planPos := 0, stage := .idle, settling := 0,
                  startPending := false, judgeDue := false }))
            (s.fen.quietPending = false → exec (.attemptEnd line held) s = .next stopped)
            ∧ (s.fen.quietPending = true → exec (.attemptEnd line held) s = .next
                (answerDeferred (fun r => r == .quiet) .ok [] (goQuiet s.fen.haltCause stopped))))))
  ∧ (∀ (line : List Level) (s : State),
    s.btx.state = .idle → s.fen.item = none → s.fen.judgeDue = true →
    let u := s.setFen { s.fen with judgeDue := false }
    exec (.attemptEnd line true) s = .next s
    ∧ (s.fen.stage = .periodic →
        exec (.attemptEnd line false) s = .next (walkPeriodic (s.fen.plan.drop s.fen.planPos) u))
    ∧ (s.fen.stage = .periodicEnded → exec (.attemptEnd line false) s = .next (probeStage u))
    ∧ (s.fen.stage = .probe ∨ s.fen.stage = .adHoc →
        exec (.attemptEnd line false) s = .next
          (serveAdHoc s.fen.queue (u.setFen { u.fen with stage := .adHoc }))))
  ∧ ∀ (tag : Byte) (s : State), ItsTurn .halt tag [] s →
    s.fen.engine = .running → s.fen.item = none → s.fen.judgeDue = true → s.fen.quietPending = false →
    ∃ t : State, Answers (.halt tag) tag .ok [] s t
      ∧ t.fen.engine = .stopped ∧ t.fen.item = none ∧ t.fen.judgeDue = false ∧ t.fen.plan = []
      ∧ t.fen.queue = s.fen.queue ∧ t.scm = s.scm ∧ t.btx = s.btx

/-- The recording of a periodic item's outcome in its entry (R4, R19, R44): the counters and the last outcome of an
entry whose handle still matches; nothing in an entry that was freed or replaced. Every other entry, the chains
and L are unchanged. Then the drop manager has the outcome (R76, R86), and the window of a routed valid answer is
deposited, unless it reaches beyond the values (R19, R108). -/
def Obligations.PeriodicOutcomeIsRecorded : Prop :=
  ∀ (p : PlanPair) (d : Fin 24) (r : AttemptResult) (s : State),
    let t := recordPeriodic p d r s
    let e := tget s.scm.entries p.index
    let ok := (match r with | .valid _ _ _ => true | .error _ => false)
    (e.body = none ∨ e.gen ≠ p.gen → t = dropOutcome d ok s)
    ∧ (∀ b, e.body = some b → e.gen = p.gen →
      let u := dropOutcome d ok (s.setScm { s.scm with
        entries := tput s.scm.entries p.index { e with body := some (match r with
          | .valid fault _ _ => { b with
              done := min (b.done + 1) 65535, last := if fault then .dropFault else .ok }
          | .error x => { b with failed := min (b.failed + 1) 65535, last := .failed x }) } })
      ((∃ x, r = .error x) ∨ b.route = none → t = u)
      ∧ ∀ fault service values route, r = .valid fault service values → b.route = some route →
        let width := (tget s.rst.sets route.set).width
        (values.length < route.offset + width → t = u)
        ∧ (route.offset + width ≤ values.length →
          t = deposit route.set
            { entry := p.index, frame := s.fen.frame, fault := fault, service := service,
              values := (values.drop route.offset).take width } u))
    ∧ t.drm = (dropOutcome d ok s).drm ∧ t.fen = s.fen ∧ t.btx = s.btx ∧ t.link = s.link

/-- The judgement of a plan pair (R36, R37, R41): stale pairs are passed over, then NOT_READY, then SKIPPED, and
otherwise the item starts from a capture of the entry as it stands. The head of the ad hoc queue (R39, R98): an
unforced head whose drop is not ready ends NOT_READY, and the next is examined; one that fits leaves the queue and
starts; one that does not fit waits. Heads are examined until the guard start, in its last ticks too (R35), and that none
is at the guard start itself is the model's reading (log 13). The end of the periodic stage raises the FRAME-EVENT of the frame's skips (R45), and the probe stage follows
(R38, R79, R80): the first candidate in address order after the probe cursor is probed if a probe fits, and otherwise the
drop manager is told nothing; then the ad hoc stage follows. -/
def Obligations.ItemsAreJudged : Prop :=
  (∀ (p : PlanPair) (rest : List PlanPair) (s : State),
      let u := s.setFen { s.fen with planPos := s.fen.planPos + 1 }
      let e := tget s.scm.entries p.index
      let put := fun (b : EntryBody) (t : State) =>
        t.setScm { s.scm with entries := tput s.scm.entries p.index { e with body := some b } }
      (e.body = none ∨ e.gen ≠ p.gen → walkPeriodic (p :: rest) s = walkPeriodic rest u)
      ∧ ∀ b, e.body = some b → e.gen = p.gen →
        let state := (tget s.drm.drops b.trans.drop).state
        let cost := 162 + 20 * (b.trans.outCount + b.trans.inCount)
        (state ≠ .online → state ≠ .failing →
          walkPeriodic (p :: rest) s = walkPeriodic rest
            (put { b with notReady := min (b.notReady + 1) 65535, last := .notReady } u))
        ∧ (state = .online ∨ state = .failing →
          (remaining s.fen < cost →
            walkPeriodic (p :: rest) s = walkPeriodic rest
              (put { b with skipped := min (b.skipped + 1) 65535, last := .skipped }
                (u.setFen { u.fen with skipCount := s.fen.skipCount + 1 })))
          ∧ (cost ≤ remaining s.fen →
            walkPeriodic (p :: rest) s =
              (u.setFen { u.fen with
                item := some { source := .periodic p, retries := b.trans.retries, attempts := 1,
                               lastError := none } }).setBtx
              { s.btx with
                state := .request, dbde := true, rx := { startAt := none, bytes := [], endAt := none }, heard := [],
                capture := some
                  { cmd := (match b.trans.kind with | .read => .read | .write => .write | .exchange => .exchange),
                    drop := b.trans.drop, first := b.trans.first, inCount := b.trans.inCount,
                    outCount := b.trans.outCount, outputs := b.outputs } })))
  ∧ (∀ (h : AdHoc) (rest : List AdHoc) (s : State) (now : Nat), s.fen.timer = some now →
      4 * s.fen.config.guardStart ≤ now → serveAdHoc (h :: rest) s = s)
  ∧ (∀ (h : AdHoc) (rest : List AdHoc) (s : State) (now : Nat), s.fen.timer = some now →
      now < 4 * s.fen.config.guardStart →
      let state := (tget s.drm.drops h.trans.drop).state
      let ready := state = .online ∨ state = .failing
      let cost := 162 + 20 * (h.trans.outCount + h.trans.inCount)
      let u := s.setFen { s.fen with queue := rest }
      (h.force = false → ¬ ready →
        serveAdHoc (h :: rest) s = serveAdHoc rest (u.setRep { s.rep with
          queue := s.rep.queue ++
            [{ seq := s.rep.nextSeq,
               report := .ticketDone
                 { ticket := h.ticket, outcome := .notReady, lastError := none, attempts := 0,
                   frame := s.fen.frame, flags := none, values := [] } }],
          nextSeq := s.rep.nextSeq + 1 }))
      ∧ (h.force = true ∨ ready →
        (cost ≤ remaining s.fen →
          serveAdHoc (h :: rest) s =
            (u.setFen { u.fen with
              item := some { source := .adHoc h.ticket true, retries := h.trans.retries, attempts := 1,
                             lastError := none } }).setBtx
            { s.btx with
              state := .request, dbde := true, rx := { startAt := none, bytes := [], endAt := none }, heard := [],
              capture := some
                { cmd := (match h.trans.kind with | .read => .read | .write => .write | .exchange => .exchange),
                  drop := h.trans.drop, first := h.trans.first, inCount := h.trans.inCount,
                  outCount := h.trans.outCount, outputs := h.outputs } })
        ∧ (remaining s.fen < cost → serveAdHoc (h :: rest) s = s)))
  ∧ (∀ s : State,
      let event : FrameSummary :=
        { slot := s.fen.slot, frame := s.fen.frame, skipped := s.fen.skipCount, jams := 0, frames := 1 }
      (s.fen.skipCount = 0 → walkPeriodic [] s = probeStage s)
      ∧ (0 < s.fen.skipCount → walkPeriodic [] s = probeStage (offerFrame event s)))
  ∧ ∀ s : State,
      let candidate := fun d : Fin 24 => (tget s.drm.drops d).state = .seeking
        ∨ ((tget s.drm.drops d).state = .quarantined ∧ (tget s.drm.drops d).due = 0)
      let steps := fun d : Fin 24 => (d.val + 23 - s.drm.cursor.val) % 24
      ((∀ d, ¬ candidate d) ∨ remaining s.fen < 202 →
        probeStage s = serveAdHoc s.fen.queue (s.setFen { s.fen with stage := .adHoc }))
      ∧ ∀ d, candidate d → (∀ e, candidate e → steps d ≤ steps e) → 202 ≤ remaining s.fen →
        probeStage s =
          ((s.setFen { s.fen with
            stage := .probe,
            item := some { source := .probe, retries := 0, attempts := 1, lastError := none } }).setBtx
            { s.btx with
              state := .request, dbde := true, rx := { startAt := none, bytes := [], endAt := none }, heard := [],
              capture := some { cmd := .probe, drop := d, first := 0, inCount := 2, outCount := 0, outputs := [] } }).setDrm
            { s.drm with cursor := d, probe := some { drop := d, live := true } }

/-- What outcomes and probes do to a drop record, and the event they raise (R74 to R77, R82 to R84); that the record
changes first and the event is then offered (R86); the class of a probe result, and the probes that change nothing
(R81); the SERVICE flag of a valid answer (R85). -/
def Obligations.DropRecordsMove : Prop :=
  (∀ (r : DropRec) (id : Identity),
    let total := min (r.total + 1) 65535
    let lost := some ({ left := r.state, entered := .quarantined, kind := .lost } : DropChange)
    let arrived := fun k : Transition => some ({ left := r.state, entered := .online, kind := k } : DropChange)
    let online := { r with state := .online, failures := 0, due := 0, identity := some id }
    (r.state ≠ .online → r.state ≠ .failing → ∀ ok, dropItem ok r = (r, none))
    ∧ (r.state = .online ∨ r.state = .failing →
        dropItem true r = ({ r with state := .online, failures := 0 }, none))
    ∧ (r.state = .online → 2 ≤ r.threshold →
        dropItem false r = ({ r with state := .failing, failures := 1, due := 0, total := total }, none))
    ∧ (r.state = .online → r.threshold = 1 →
        dropItem false r =
          ({ r with state := .quarantined, failures := 1, due := r.interval, total := total }, lost))
    ∧ (r.state = .failing → r.failures + 1 < r.threshold →
        dropItem false r =
          ({ r with state := .failing, failures := r.failures + 1, due := 0, total := total }, none))
    ∧ (r.state = .failing → r.failures + 1 = r.threshold →
        dropItem false r =
          ({ r with state := .quarantined, failures := r.threshold, due := r.interval, total := total }, lost))
    ∧ (r.state = .seeking →
        dropProbe (some id) r = (online, arrived .arrived) ∧ dropProbe none r = (r, none))
    ∧ (r.state = .quarantined →
        dropProbe none r = ({ r with due := r.interval }, none)
        ∧ ∀ old, r.identity = some old →
          (old.kind = id.kind → dropProbe (some id) r = (online, arrived .readmitted))
          ∧ (old.kind ≠ id.kind → dropProbe (some id) r = (online, arrived .replaced)))
    ∧ (r.state ≠ .seeking → r.state ≠ .quarantined → ∀ good, dropProbe good r = (r, none)))
  ∧ (∀ (d : Fin 24) (ok : Bool) (s : State),
      let out := dropItem ok (tget s.drm.drops d)
      let u := s.setDrm { s.drm with drops := tput s.drm.drops d out.1 }
      (out.2 = none → dropOutcome d ok s = u) ∧ ∀ x, out.2 = some x → dropOutcome d ok s = offerDrop d x u)
  ∧ (∀ (fault service : Bool) (values : List Word) (e : AttemptError),
      let points := (values.getD 1 0).toNat
      goodProbe (.error e) = none
      ∧ (points = 0 ∨ 64 < points → goodProbe (.valid fault service values) = none)
      ∧ (1 ≤ points → points ≤ 64 → goodProbe (.valid fault service values) =
          some { kind := lowByte (values.getD 0 0), points := points }))
  ∧ (∀ (r : AttemptResult) (s : State),
      let emptied := s.setDrm { s.drm with probe := none }
      (s.drm.probe = none → probeOutcome r s = emptied)
      ∧ ∀ p, s.drm.probe = some p →
        let out := dropProbe (goodProbe r) (tget s.drm.drops p.drop)
        let u := s.setDrm { s.drm with drops := tput s.drm.drops p.drop out.1, probe := none }
        (p.live = false → probeOutcome r s = emptied)
        ∧ (p.live = true → out.2 = none → probeOutcome r s = u)
        ∧ ∀ x, p.live = true → out.2 = some x → probeOutcome r s = offerDrop p.drop x u)
  ∧ ∀ (d : Fin 24) (flag : Bool) (s : State),
      let r := tget s.drm.drops d
      (flag = false ∨ r.state = .off ∨ r.service = true → serviceHandover d flag s = s)
      ∧ (flag = true → r.state ≠ .off → r.service = false →
        serviceHandover d flag s =
          offerService d (s.setDrm { s.drm with drops := tput s.drm.drops d { r with service := true } }))

/-- A deposit (R109 to R113): nothing in OFF; in BLOCK the sample joins the partial block, and the fourth completes a
block that is offered and counted lost if refused; in LATEST it takes the slot after the newest. That the slots hold no
sample after a block has been formed is the model's choice (log 18). -/
def Obligations.DepositFollowsTheMode : Prop :=
  ∀ (k : Fin 16) (x : Sample) (s : State),
    let r := tget s.rst.sets k
    let put := fun r' : SetRec => s.setRst { sets := tput s.rst.sets k r' }
    (r.mode = .off → deposit k x s = s)
    ∧ (r.mode = .block → ∀ n : Fin 4, n.val = r.fill → r.fill < 3 →
        deposit k x s = put { r with slots := tput r.slots n (some x), fill := r.fill + 1 })
    ∧ (r.mode = .block → r.fill = 3 → ∀ a b c : Sample,
        tget r.slots 0 = some a → tget r.slots 1 = some b → tget r.slots 2 = some c →
        let after := fun lost => { r with
          slots := Vector.replicate _ none, fill := 0, block := r.block + 1, lost := lost }
        let admitted := s.link.session.state ≠ .closed ∧ s.rep.queue.length + ticketCount s.fen < 32
        (admitted → deposit k x s = (put (after 0)).setRep { s.rep with
          queue := s.rep.queue ++
            [{ seq := s.rep.nextSeq,
               report := .setBlock
                 { set := k, block := r.block, lost := r.lost, width := r.width, samples := [a, b, c, x] } }],
          nextSeq := s.rep.nextSeq + 1 })
        ∧ (¬ admitted → deposit k x s = put (after (min (r.lost + 1) 255))))
    ∧ (r.mode = .latest →
        (r.latest = 0 → deposit k x s =
          put { r with slots := tput r.slots 0 (some x), newest := 0, latest := 1 })
        ∧ (0 < r.latest → deposit k x s =
          put { r with
            slots := tput r.slots (r.newest + 1) (some x), newest := r.newest + 1,
            latest := min (r.latest + 1) 4 }))

/-! ### The transmit line -/

/-- TX_FRAME_START (R163, R165): the reply that became ready first, else the report at the send position when it may
be sent; a first sending raises u. REPLY_SENT (R157, R162): the place of the request is free and the reply enters
reply memory at the newest place, the oldest of 8 leaving; a reply of the short-reply list enters nothing. The OK
reply of CLOSE in a closing session is dealt with in `SessionEnds`. That the resend timer runs from the start of the
first report frame is the model's reading (log 19), and so is that the reply of a request abandoned at the session's end
enters nothing (log 9); that a command whose occasion is absent changes nothing is its choice (log 2). The bytes on LTX
are those of the link frame of that reply or report: SYNC, LEN, KIND, TAG, payload, and the check low byte first (10.1,
R185); the payload of each kind of report has the layout and the codes of 10.5 and 10.2 (R180, R183). -/
def Obligations.TransmitLine : Prop :=
  (let two := fun w : Word => [w.setWidth 8, (w >>> 8).setWidth 8]
    let marks := fun fault service : Bool => ((if fault then 1 else 0) + (if service then 2 else 0) : Byte)
    let frame := fun (kind tag : Byte) (payload : List Byte) =>
      let covered := [byteOf payload.length, kind, tag] ++ payload
      [0xC3] ++ covered ++ two (linkCheck covered)
    let report : Report → Byte × List Byte := fun r => match r with
      | .ticketDone r => (0x41,
          two r.ticket
          ++ [(match r.outcome with | .ok => 1 | .dropFault => 2 | .failed => 3 | .notReady => 5 | .aborted => 6),
            (match r.lastError with
              | none => 0 | some .noAnswer => 1 | some .badCheck => 2 | some .wrongDrop => 3 | some .badLength => 4),
            byteOf r.attempts]
          ++ two r.frame
          ++ [(match r.flags with | some (fault, service) => 0x80 + marks fault service | none => 0),
            byteOf r.values.length]
          ++ r.values.flatMap two)
      | .setBlock r => (0x42,
          [byteOf r.set.val] ++ two r.block ++ [byteOf r.lost, byteOf r.width]
          ++ r.samples.flatMap fun x : Sample =>
            [byteOf x.entry.val] ++ two x.frame ++ [marks x.fault x.service] ++ x.values.flatMap two)
      | .engineState c count => (0x43,
          [c.new.code, c.left.code,
            (match c.cause with
              | .host => 1 | .jam => 2 | .wakePulse => 3 | .settled => 4 | .reset => 5 | .linkLoss => 6)]
          ++ two c.frame ++ [byteOf count])
      | .dropState d c count => (0x44,
          [byteOf (d.val + 1), c.left.code, c.entered.code,
            (match c.kind with | .arrived => 1 | .lost => 2 | .readmitted => 3 | .replaced => 4), byteOf count])
      | .service d => (0x45, [byteOf (d.val + 1)])
      | .frameEvent f => (0x46,
          [byteOf f.slot.val] ++ two f.frame ++ [byteOf f.skipped, byteOf (f.skipped / 256), byteOf f.jams,
            byteOf f.frames, byteOf (f.frames / 256)])
    (∀ r, ltxBytes (.reply r) = frame r.kind r.tag r.payload)
    ∧ (∀ q counts, ltxBytes (.report q counts) = frame (report q.report).1 q.seq (report q.report).2)
    ∧ ltxBytes .idle = []
    ∧ [EngineState.stopped, .running, .halting, .quiet, .waking].map EngineState.code = [0, 1, 2, 3, 4]
    ∧ [DropState.off, .seeking, .online, .failing, .quarantined].map DropState.code = [0, 1, 2, 3, 4])
  ∧ (∀ bytes : List Byte,
    let shift := fun r : Word => if r.getLsbD 15 then (r <<< 1) ^^^ (0x8005 : Word) else r <<< 1
    linkCheck bytes = bytes.foldl
      (fun (r : Word) (b : Byte) =>
        (List.range 8).foldl (fun r _ => shift r) (r ^^^ ((b.setWidth 16 : Word) <<< 8))) 0xFFFF)
  ∧ (∀ s : State,
      let l := s.link
      let mayResend := l.send.position < l.send.unacked
      let mayBegin := l.send.position = l.send.unacked ∧ l.send.unacked < l.session.window
      (l.ltx ≠ .idle → exec .txFrameStart s = .next s)
      ∧ (l.ltx = .idle → ∀ r rest, l.outbox = r :: rest →
          exec .txFrameStart s = .next (s.setLink { l with ltx := .reply r, outbox := rest }))
      ∧ (l.ltx = .idle → l.outbox = [] →
        (∀ q, l.session.state = .opened → l.send.path = .sending → mayResend ∨ mayBegin →
          s.rep.queue[l.send.position]? = some q →
          exec .txFrameStart s = .next (s.setLink { l with
            ltx := .report q true,
            send := { l.send with
              unacked := if mayBegin then l.send.unacked + 1 else l.send.unacked,
              timer := if l.send.timer.isSome then l.send.timer else some (10 * l.session.resendTime) } }))
        ∧ (l.session.state ≠ .opened ∨ l.send.path = .stalled ∨ ¬ (mayResend ∨ mayBegin)
            ∨ s.rep.queue.length ≤ l.send.position →
          exec .txFrameStart s = .next s)))
  ∧ (∀ (r : OutReply) (s : State), s.link.ltx = .reply r →
      (r.origin = .request → ¬ (s.link.session.state = .closing ∧ r.kind = 0x82 ∧ r.payload = [0]) →
        exec .replySent s = .next (s.setLink { s.link with
          ltx := .idle, places := s.link.places.filter fun p => p.tag != r.tag,
          memory := (r :: s.link.memory).take 8 }))
      ∧ (r.origin ≠ .request → exec .replySent s = .next (s.setLink { s.link with ltx := .idle })))

/-- REPORT_FRAME_SENT and RESEND_TIMEOUT (R165, R168): a report frame that counts advances the send position; the
first and second expiry send the unacknowledged reports again, the third makes the path STALLED. That a report frame on
LTX at an expiry counts no more is the model's reading (log 10); that the expiry itself starts the timer again (log 30),
and that an expiry of a stopped timer changes nothing (log 2), are its choices. -/
def Obligations.ReportsAreSentAndSentAgain : Prop :=
  ∀ s : State,
    let l := s.link
    let load := some (10 * l.session.resendTime)
    (∀ q counts, l.ltx = .report q counts →
      exec .reportFrameSent s = .next (s.setLink { l with
        ltx := .idle,
        send := { l.send with
          position := if counts then l.send.position + 1 else l.send.position,
          timer := if l.send.path = .stalled then l.send.timer
                   else if 0 < l.send.unacked then load else none } }))
    ∧ (l.send.timer = none → exec .resendTimeout s = .next s)
    ∧ (l.send.timer.isSome = true →
      (l.send.resends < 2 →
        exec .resendTimeout s = .next (s.setLink { l with
          send := { l.send with
            position := 0, resends := l.send.resends + 1, timer := if 0 < l.send.unacked then load else none },
          ltx := (match l.ltx with | .report q _ => .report q false | y => y) }))
      ∧ (2 ≤ l.send.resends →
        exec .resendTimeout s = .next (s.setLink { l with
          send := { l.send with resends := l.send.resends + 1, timer := none, path := .stalled } })))

/-- A session ends when the CLOSE reply has been sent (R172) or the silence timer expires (R170): CLOSED with its
cause, the requests of the session abandoned, reply memory and the send state cleared, the report queue emptied,
the classes MASKED, the latches kept, every ticket removed (R106, R139, R173). With link-loss action HALT the claim
follows (R31, R149): HALTING with cause LINK-LOSS when an item is in progress in RUNNING; STOPPED at once, with that
cause, in RUNNING with none and in WAKING, a waiting QUIET then carried out (R142). That the reply frame of an abandoned
request on LTX is sent to its end and answers none is the model's reading (log 9); so is that the claim has no effect
while a RESET ENGINE waits for its RESUME, a state the statement leaves out (log 12). -/
def Obligations.SessionEnds : Prop :=
  ∀ (s0 : State) (cause : EndCause) (c : Instr) (s : State),
    ((c = .silenceTimeout ∧ cause = .silence ∧ s = s0 ∧ s0.link.session.silence.isSome = true)
      ∨ (c = .replySent ∧ cause = .close ∧ s0.link.session.state = .closing
        ∧ ∃ r, s0.link.ltx = .reply r ∧ r.origin = .request ∧ r.kind = 0x82 ∧ r.payload = [0]
          ∧ s = s0.setLink { s0.link with
              ltx := .idle, places := s0.link.places.filter fun p => p.tag != r.tag,
              memory := (r :: s0.link.memory).take 8 })) →
    let kept := s.link.places.filter fun p => !p.inOpen
    let u := ((s.setLink { s.link with
        session := { s.link.session with state := .closed, silence := none, endCause := cause },
        places := kept,
        outbox := s.link.outbox.filter fun r => r.origin != .request || kept.any fun p => p.tag == r.tag,
        memory := [],
        ltx := ltxAtEnd kept s.link.ltx,
        send := { unacked := 0, position := 0, resends := 0, timer := none, path := .sending } }).setRep
          { s.rep with queue := [], maskDrop := .masked, maskService := .masked, maskFrame := .masked }).setFen
          { s.fen with
            queue := [],
            item := s.fen.item.map fun it => match it.source with
              | .adHoc n _ => { it with source := .adHoc n false }
              | .periodic _ | .probe => it }
    let change := fun new left : EngineState =>
      ({ new := new, left := left, cause := .linkLoss, frame := s.fen.frame } : EngineChange)
    let stoppedFen := { u.fen with
      engine := .stopped, timer := none, plan := [], planPos := 0, stage := .idle, settling := 0,
      startPending := false, judgeDue := false }
    (s.link.session.action = .continue_ → exec c s0 = .next u)
    ∧ (s.link.session.action = .halt → s.fen.resetPending = false →
      (s.fen.engine = .stopped ∨ s.fen.engine = .quiet → exec c s0 = .next u)
      ∧ (s.fen.engine = .halting → exec c s0 = .next (u.setFen { u.fen with haltCause := .linkLoss }))
      ∧ (s.fen.engine = .running → s.fen.item.isSome = true →
        exec c s0 = .next (offerEngine (change .halting .running)
          (u.setFen { u.fen with haltCause := .linkLoss, engine := .halting })))
      ∧ (s.fen.engine = .running → s.fen.item = none →
        let skips := s.fen.stage = .periodic ∧ 0 < s.fen.skipCount
        let event : FrameSummary :=
          { slot := s.fen.slot, frame := s.fen.frame, skipped := s.fen.skipCount, jams := 0, frames := 1 }
        let stopped := offerEngine (change .stopped .running)
          ((if skips then offerFrame event u else u).setFen stoppedFen)
        (s.fen.quietPending = false → exec c s0 = .next stopped)
        ∧ (s.fen.quietPending = true → exec c s0 = .next
            (answerDeferred (fun r => r == .quiet) .ok [] (goQuiet .linkLoss stopped))))
      ∧ (s.fen.engine = .waking → s.fen.stage ≠ .periodic →
        exec c s0 = .next (offerEngine (change .stopped .waking) (u.setFen stoppedFen))))

/-! ### Invariants of every step -/

/-- R5: every step keeps the poll store and the frame table in agreement. -/
def Obligations.StepKeepsTheSchedule : Prop :=
  ∀ s t : State, ScheduleInv s.scm → step s = .next t → ScheduleInv t.scm

/-- R8, R107, R110, R113: every step keeps every route within its entry's input values, and every set sound. -/
def Obligations.StepKeepsRoutesAndSets : Prop :=
  ∀ s t : State, RouteInv s → SetInv s.rst → step s = .next t → RouteInv t ∧ SetInv t.rst

/-- R93, R94, R122: every step keeps the tickets distinct and at most 16, and their number and the queue's occupancy
together at most 32. -/
def Obligations.StepKeepsTicketPlaces : Prop :=
  ∀ s t : State, TicketInv s → step s = .next t → TicketInv t

/-- R40: every step keeps the work on the bus within the frame: an item in progress ends by the guard start. R50: BTX
drives the line exactly with DBDE asserted, and then listens to nothing. -/
def Obligations.StepKeepsTheBudget : Prop :=
  ∀ s t : State, BudgetInv s → DriverInv s.btx → step s = .next t → BudgetInv t ∧ DriverInv t.btx

/-- R73 to R75: every step keeps every drop record sound. -/
def Obligations.StepKeepsDropRecords : Prop :=
  ∀ s t : State, DropInv s.drm → step s = .next t → DropInv t.drm

/-- R164, R165, R168: every step keeps the report send state within the queue and the window. -/
def Obligations.StepKeepsTheSendState : Prop :=
  ∀ s t : State, SendInv s → step s = .next t → SendInv t

/-- R106, R139, R159, R173: every step keeps what a session governs, in states in which LNK is within its capacities:
the tags of the outstanding requests are all different (R156). -/
def Obligations.StepKeepsTheSessionRules : Prop :=
  ∀ s t : State, PlacesInv s.link → SessionInv s → step s = .next t → SessionInv t

/-- R156, R157, R161, R162: every step keeps LNK within its capacities, with one reply for each ready request. -/
def Obligations.StepKeepsLinkCapacities : Prop :=
  ∀ s t : State, PlacesInv s.link → step s = .next t → PlacesInv t.link
end

