-- ==== Sys2Proof/Laws/State.lean ====
section
/-! SUPPORT. One lemma for each field of each block update: no proof unfolds a record update. -/

namespace Sys2Proof.Machine

variable (s : State)

@[simp] theorem setLink_link (x : Link) : (s.setLink x).link = x := rfl
@[simp] theorem setLink_scm (x : Link) : (s.setLink x).scm = s.scm := rfl
@[simp] theorem setLink_fen (x : Link) : (s.setLink x).fen = s.fen := rfl
@[simp] theorem setLink_btx (x : Link) : (s.setLink x).btx = s.btx := rfl
@[simp] theorem setLink_drm (x : Link) : (s.setLink x).drm = s.drm := rfl
@[simp] theorem setLink_rst (x : Link) : (s.setLink x).rst = s.rst := rfl
@[simp] theorem setLink_rep (x : Link) : (s.setLink x).rep = s.rep := rfl
@[simp] theorem setLink_pending (x : Link) : (s.setLink x).pending = s.pending := rfl

@[simp] theorem setScm_link (x : Scm) : (s.setScm x).link = s.link := rfl
@[simp] theorem setScm_scm (x : Scm) : (s.setScm x).scm = x := rfl
@[simp] theorem setScm_fen (x : Scm) : (s.setScm x).fen = s.fen := rfl
@[simp] theorem setScm_btx (x : Scm) : (s.setScm x).btx = s.btx := rfl
@[simp] theorem setScm_drm (x : Scm) : (s.setScm x).drm = s.drm := rfl
@[simp] theorem setScm_rst (x : Scm) : (s.setScm x).rst = s.rst := rfl
@[simp] theorem setScm_rep (x : Scm) : (s.setScm x).rep = s.rep := rfl
@[simp] theorem setScm_pending (x : Scm) : (s.setScm x).pending = s.pending := rfl

@[simp] theorem setFen_link (x : Fen) : (s.setFen x).link = s.link := rfl
@[simp] theorem setFen_scm (x : Fen) : (s.setFen x).scm = s.scm := rfl
@[simp] theorem setFen_fen (x : Fen) : (s.setFen x).fen = x := rfl
@[simp] theorem setFen_btx (x : Fen) : (s.setFen x).btx = s.btx := rfl
@[simp] theorem setFen_drm (x : Fen) : (s.setFen x).drm = s.drm := rfl
@[simp] theorem setFen_rst (x : Fen) : (s.setFen x).rst = s.rst := rfl
@[simp] theorem setFen_rep (x : Fen) : (s.setFen x).rep = s.rep := rfl
@[simp] theorem setFen_pending (x : Fen) : (s.setFen x).pending = s.pending := rfl

@[simp] theorem setBtx_link (x : Btx) : (s.setBtx x).link = s.link := rfl
@[simp] theorem setBtx_scm (x : Btx) : (s.setBtx x).scm = s.scm := rfl
@[simp] theorem setBtx_fen (x : Btx) : (s.setBtx x).fen = s.fen := rfl
@[simp] theorem setBtx_btx (x : Btx) : (s.setBtx x).btx = x := rfl
@[simp] theorem setBtx_drm (x : Btx) : (s.setBtx x).drm = s.drm := rfl
@[simp] theorem setBtx_rst (x : Btx) : (s.setBtx x).rst = s.rst := rfl
@[simp] theorem setBtx_rep (x : Btx) : (s.setBtx x).rep = s.rep := rfl
@[simp] theorem setBtx_pending (x : Btx) : (s.setBtx x).pending = s.pending := rfl

@[simp] theorem setDrm_link (x : Drm) : (s.setDrm x).link = s.link := rfl
@[simp] theorem setDrm_scm (x : Drm) : (s.setDrm x).scm = s.scm := rfl
@[simp] theorem setDrm_fen (x : Drm) : (s.setDrm x).fen = s.fen := rfl
@[simp] theorem setDrm_btx (x : Drm) : (s.setDrm x).btx = s.btx := rfl
@[simp] theorem setDrm_drm (x : Drm) : (s.setDrm x).drm = x := rfl
@[simp] theorem setDrm_rst (x : Drm) : (s.setDrm x).rst = s.rst := rfl
@[simp] theorem setDrm_rep (x : Drm) : (s.setDrm x).rep = s.rep := rfl
@[simp] theorem setDrm_pending (x : Drm) : (s.setDrm x).pending = s.pending := rfl

@[simp] theorem setRst_link (x : Rst) : (s.setRst x).link = s.link := rfl
@[simp] theorem setRst_scm (x : Rst) : (s.setRst x).scm = s.scm := rfl
@[simp] theorem setRst_fen (x : Rst) : (s.setRst x).fen = s.fen := rfl
@[simp] theorem setRst_btx (x : Rst) : (s.setRst x).btx = s.btx := rfl
@[simp] theorem setRst_drm (x : Rst) : (s.setRst x).drm = s.drm := rfl
@[simp] theorem setRst_rst (x : Rst) : (s.setRst x).rst = x := rfl
@[simp] theorem setRst_rep (x : Rst) : (s.setRst x).rep = s.rep := rfl
@[simp] theorem setRst_pending (x : Rst) : (s.setRst x).pending = s.pending := rfl

@[simp] theorem setRep_link (x : Rep) : (s.setRep x).link = s.link := rfl
@[simp] theorem setRep_scm (x : Rep) : (s.setRep x).scm = s.scm := rfl
@[simp] theorem setRep_fen (x : Rep) : (s.setRep x).fen = s.fen := rfl
@[simp] theorem setRep_btx (x : Rep) : (s.setRep x).btx = s.btx := rfl
@[simp] theorem setRep_drm (x : Rep) : (s.setRep x).drm = s.drm := rfl
@[simp] theorem setRep_rst (x : Rep) : (s.setRep x).rst = s.rst := rfl
@[simp] theorem setRep_rep (x : Rep) : (s.setRep x).rep = x := rfl
@[simp] theorem setRep_pending (x : Rep) : (s.setRep x).pending = s.pending := rfl

@[simp] theorem setLink_self : s.setLink s.link = s := rfl
@[simp] theorem setLink_setLink (x y : Link) : (s.setLink x).setLink y = s.setLink y := rfl
@[simp] theorem setScm_self : s.setScm s.scm = s := rfl
@[simp] theorem setScm_setScm (x y : Scm) : (s.setScm x).setScm y = s.setScm y := rfl
@[simp] theorem setFen_self : s.setFen s.fen = s := rfl
@[simp] theorem setFen_setFen (x y : Fen) : (s.setFen x).setFen y = s.setFen y := rfl
@[simp] theorem setBtx_self : s.setBtx s.btx = s := rfl
@[simp] theorem setBtx_setBtx (x y : Btx) : (s.setBtx x).setBtx y = s.setBtx y := rfl
@[simp] theorem setDrm_self : s.setDrm s.drm = s := rfl
@[simp] theorem setDrm_setDrm (x y : Drm) : (s.setDrm x).setDrm y = s.setDrm y := rfl
@[simp] theorem setRst_self : s.setRst s.rst = s := rfl
@[simp] theorem setRst_setRst (x y : Rst) : (s.setRst x).setRst y = s.setRst y := rfl
@[simp] theorem setRep_self : s.setRep s.rep = s := rfl
@[simp] theorem setRep_setRep (x y : Rep) : (s.setRep x).setRep y = s.setRep y := rfl

end Sys2Proof.Machine
end

