-- ==== Sys2Proof/Laws/Frames.lean ====
section
/-! SUPPORT. What the shared operations leave unchanged: one lemma for each block an operation does not touch. -/

namespace Sys2Proof.Machine

@[simp] theorem reply_scm (tag : Byte) (st : Status) (data : List Byte) (s : State) :
    (reply tag st data s).scm = s.scm := by
  simp [reply]

@[simp] theorem reply_fen (tag : Byte) (st : Status) (data : List Byte) (s : State) :
    (reply tag st data s).fen = s.fen := by
  simp [reply]

@[simp] theorem reply_btx (tag : Byte) (st : Status) (data : List Byte) (s : State) :
    (reply tag st data s).btx = s.btx := by
  simp [reply]

@[simp] theorem reply_drm (tag : Byte) (st : Status) (data : List Byte) (s : State) :
    (reply tag st data s).drm = s.drm := by
  simp [reply]

@[simp] theorem reply_rst (tag : Byte) (st : Status) (data : List Byte) (s : State) :
    (reply tag st data s).rst = s.rst := by
  simp [reply]

@[simp] theorem reply_rep (tag : Byte) (st : Status) (data : List Byte) (s : State) :
    (reply tag st data s).rep = s.rep := by
  simp [reply]

@[simp] theorem reply_pending (tag : Byte) (st : Status) (data : List Byte) (s : State) :
    (reply tag st data s).pending = s.pending := by
  simp [reply]

@[simp] theorem deferReply_scm (tag : Byte) (s : State) :
    (deferReply tag s).scm = s.scm := by
  unfold deferReply
  simp

@[simp] theorem deferReply_fen (tag : Byte) (s : State) :
    (deferReply tag s).fen = s.fen := by
  unfold deferReply
  simp

@[simp] theorem deferReply_btx (tag : Byte) (s : State) :
    (deferReply tag s).btx = s.btx := by
  unfold deferReply
  simp

@[simp] theorem deferReply_drm (tag : Byte) (s : State) :
    (deferReply tag s).drm = s.drm := by
  unfold deferReply
  simp

@[simp] theorem deferReply_rst (tag : Byte) (s : State) :
    (deferReply tag s).rst = s.rst := by
  unfold deferReply
  simp

@[simp] theorem deferReply_rep (tag : Byte) (s : State) :
    (deferReply tag s).rep = s.rep := by
  unfold deferReply
  simp

@[simp] theorem deferReply_pending (tag : Byte) (s : State) :
    (deferReply tag s).pending = s.pending := by
  unfold deferReply
  simp

@[simp] theorem answerDeferred_scm (sel : Request → Bool) (st : Status) (data : List Byte) (s : State) :
    (answerDeferred sel st data s).scm = s.scm := by
  simp [answerDeferred]

@[simp] theorem answerDeferred_fen (sel : Request → Bool) (st : Status) (data : List Byte) (s : State) :
    (answerDeferred sel st data s).fen = s.fen := by
  simp [answerDeferred]

@[simp] theorem answerDeferred_btx (sel : Request → Bool) (st : Status) (data : List Byte) (s : State) :
    (answerDeferred sel st data s).btx = s.btx := by
  simp [answerDeferred]

@[simp] theorem answerDeferred_drm (sel : Request → Bool) (st : Status) (data : List Byte) (s : State) :
    (answerDeferred sel st data s).drm = s.drm := by
  simp [answerDeferred]

@[simp] theorem answerDeferred_rst (sel : Request → Bool) (st : Status) (data : List Byte) (s : State) :
    (answerDeferred sel st data s).rst = s.rst := by
  simp [answerDeferred]

@[simp] theorem answerDeferred_rep (sel : Request → Bool) (st : Status) (data : List Byte) (s : State) :
    (answerDeferred sel st data s).rep = s.rep := by
  simp [answerDeferred]

@[simp] theorem answerDeferred_pending (sel : Request → Bool) (st : Status) (data : List Byte) (s : State) :
    (answerDeferred sel st data s).pending = s.pending := by
  simp [answerDeferred]

@[simp] theorem arrive_scm (r : Request) (tag : Byte) (payload : List Byte) (s : State) :
    (arrive r tag payload s).scm = s.scm := by
  unfold arrive
  dsimp only
  repeat' split
  all_goals simp

@[simp] theorem arrive_fen (r : Request) (tag : Byte) (payload : List Byte) (s : State) :
    (arrive r tag payload s).fen = s.fen := by
  unfold arrive
  dsimp only
  repeat' split
  all_goals simp

@[simp] theorem arrive_btx (r : Request) (tag : Byte) (payload : List Byte) (s : State) :
    (arrive r tag payload s).btx = s.btx := by
  unfold arrive
  dsimp only
  repeat' split
  all_goals simp

@[simp] theorem arrive_drm (r : Request) (tag : Byte) (payload : List Byte) (s : State) :
    (arrive r tag payload s).drm = s.drm := by
  unfold arrive
  dsimp only
  repeat' split
  all_goals simp

@[simp] theorem arrive_rst (r : Request) (tag : Byte) (payload : List Byte) (s : State) :
    (arrive r tag payload s).rst = s.rst := by
  unfold arrive
  dsimp only
  repeat' split
  all_goals simp

@[simp] theorem arrive_rep (r : Request) (tag : Byte) (payload : List Byte) (s : State) :
    (arrive r tag payload s).rep = s.rep := by
  unfold arrive
  dsimp only
  repeat' split
  all_goals simp

@[simp] theorem arrive_pending (r : Request) (tag : Byte) (payload : List Byte) (s : State) :
    (arrive r tag payload s).pending = s.pending := by
  unfold arrive
  dsimp only
  repeat' split
  all_goals simp

@[simp] theorem offerTicketDone_link (r : TicketDone) (s : State) :
    (offerTicketDone r s).link = s.link := by
  simp [offerTicketDone]

@[simp] theorem offerTicketDone_scm (r : TicketDone) (s : State) :
    (offerTicketDone r s).scm = s.scm := by
  simp [offerTicketDone]

@[simp] theorem offerTicketDone_fen (r : TicketDone) (s : State) :
    (offerTicketDone r s).fen = s.fen := by
  simp [offerTicketDone]

@[simp] theorem offerTicketDone_btx (r : TicketDone) (s : State) :
    (offerTicketDone r s).btx = s.btx := by
  simp [offerTicketDone]

@[simp] theorem offerTicketDone_drm (r : TicketDone) (s : State) :
    (offerTicketDone r s).drm = s.drm := by
  simp [offerTicketDone]

@[simp] theorem offerTicketDone_rst (r : TicketDone) (s : State) :
    (offerTicketDone r s).rst = s.rst := by
  simp [offerTicketDone]

@[simp] theorem offerTicketDone_pending (r : TicketDone) (s : State) :
    (offerTicketDone r s).pending = s.pending := by
  simp [offerTicketDone]

@[simp] theorem offerEngine_link (c : EngineChange) (s : State) :
    (offerEngine c s).link = s.link := by
  simp [offerEngine]

@[simp] theorem offerEngine_scm (c : EngineChange) (s : State) :
    (offerEngine c s).scm = s.scm := by
  simp [offerEngine]

@[simp] theorem offerEngine_fen (c : EngineChange) (s : State) :
    (offerEngine c s).fen = s.fen := by
  simp [offerEngine]

@[simp] theorem offerEngine_btx (c : EngineChange) (s : State) :
    (offerEngine c s).btx = s.btx := by
  simp [offerEngine]

@[simp] theorem offerEngine_drm (c : EngineChange) (s : State) :
    (offerEngine c s).drm = s.drm := by
  simp [offerEngine]

@[simp] theorem offerEngine_rst (c : EngineChange) (s : State) :
    (offerEngine c s).rst = s.rst := by
  simp [offerEngine]

@[simp] theorem offerEngine_pending (c : EngineChange) (s : State) :
    (offerEngine c s).pending = s.pending := by
  simp [offerEngine]

@[simp] theorem offerDrop_link (d : Fin Config.dropCount) (c : DropChange) (s : State) :
    (offerDrop d c s).link = s.link := by
  simp [offerDrop]

@[simp] theorem offerDrop_scm (d : Fin Config.dropCount) (c : DropChange) (s : State) :
    (offerDrop d c s).scm = s.scm := by
  simp [offerDrop]

@[simp] theorem offerDrop_fen (d : Fin Config.dropCount) (c : DropChange) (s : State) :
    (offerDrop d c s).fen = s.fen := by
  simp [offerDrop]

@[simp] theorem offerDrop_btx (d : Fin Config.dropCount) (c : DropChange) (s : State) :
    (offerDrop d c s).btx = s.btx := by
  simp [offerDrop]

@[simp] theorem offerDrop_drm (d : Fin Config.dropCount) (c : DropChange) (s : State) :
    (offerDrop d c s).drm = s.drm := by
  simp [offerDrop]

@[simp] theorem offerDrop_rst (d : Fin Config.dropCount) (c : DropChange) (s : State) :
    (offerDrop d c s).rst = s.rst := by
  simp [offerDrop]

@[simp] theorem offerDrop_pending (d : Fin Config.dropCount) (c : DropChange) (s : State) :
    (offerDrop d c s).pending = s.pending := by
  simp [offerDrop]

@[simp] theorem offerService_link (d : Fin Config.dropCount) (s : State) :
    (offerService d s).link = s.link := by
  simp [offerService]

@[simp] theorem offerService_scm (d : Fin Config.dropCount) (s : State) :
    (offerService d s).scm = s.scm := by
  simp [offerService]

@[simp] theorem offerService_fen (d : Fin Config.dropCount) (s : State) :
    (offerService d s).fen = s.fen := by
  simp [offerService]

@[simp] theorem offerService_btx (d : Fin Config.dropCount) (s : State) :
    (offerService d s).btx = s.btx := by
  simp [offerService]

@[simp] theorem offerService_drm (d : Fin Config.dropCount) (s : State) :
    (offerService d s).drm = s.drm := by
  simp [offerService]

@[simp] theorem offerService_rst (d : Fin Config.dropCount) (s : State) :
    (offerService d s).rst = s.rst := by
  simp [offerService]

@[simp] theorem offerService_pending (d : Fin Config.dropCount) (s : State) :
    (offerService d s).pending = s.pending := by
  simp [offerService]

@[simp] theorem offerFrame_link (f : FrameSummary) (s : State) :
    (offerFrame f s).link = s.link := by
  simp [offerFrame]

@[simp] theorem offerFrame_scm (f : FrameSummary) (s : State) :
    (offerFrame f s).scm = s.scm := by
  simp [offerFrame]

@[simp] theorem offerFrame_fen (f : FrameSummary) (s : State) :
    (offerFrame f s).fen = s.fen := by
  simp [offerFrame]

@[simp] theorem offerFrame_btx (f : FrameSummary) (s : State) :
    (offerFrame f s).btx = s.btx := by
  simp [offerFrame]

@[simp] theorem offerFrame_drm (f : FrameSummary) (s : State) :
    (offerFrame f s).drm = s.drm := by
  simp [offerFrame]

@[simp] theorem offerFrame_rst (f : FrameSummary) (s : State) :
    (offerFrame f s).rst = s.rst := by
  simp [offerFrame]

@[simp] theorem offerFrame_pending (f : FrameSummary) (s : State) :
    (offerFrame f s).pending = s.pending := by
  simp [offerFrame]

@[simp] theorem offerLatches_link (ids : List LatchId) (s : State) :
    (offerLatches ids s).1.link = s.link := by
  unfold offerLatches
  simp

@[simp] theorem offerLatches_scm (ids : List LatchId) (s : State) :
    (offerLatches ids s).1.scm = s.scm := by
  unfold offerLatches
  simp

@[simp] theorem offerLatches_fen (ids : List LatchId) (s : State) :
    (offerLatches ids s).1.fen = s.fen := by
  unfold offerLatches
  simp

@[simp] theorem offerLatches_btx (ids : List LatchId) (s : State) :
    (offerLatches ids s).1.btx = s.btx := by
  unfold offerLatches
  simp

@[simp] theorem offerLatches_drm (ids : List LatchId) (s : State) :
    (offerLatches ids s).1.drm = s.drm := by
  unfold offerLatches
  simp

@[simp] theorem offerLatches_rst (ids : List LatchId) (s : State) :
    (offerLatches ids s).1.rst = s.rst := by
  unfold offerLatches
  simp

@[simp] theorem offerLatches_pending (ids : List LatchId) (s : State) :
    (offerLatches ids s).1.pending = s.pending := by
  unfold offerLatches
  simp

@[simp] theorem enterEngine_link (new : EngineState) (cause : EngineCause) (s : State) :
    (enterEngine new cause s).link = s.link := by
  unfold enterEngine
  simp

@[simp] theorem enterEngine_scm (new : EngineState) (cause : EngineCause) (s : State) :
    (enterEngine new cause s).scm = s.scm := by
  unfold enterEngine
  simp

@[simp] theorem enterEngine_btx (new : EngineState) (cause : EngineCause) (s : State) :
    (enterEngine new cause s).btx = s.btx := by
  unfold enterEngine
  simp

@[simp] theorem enterEngine_drm (new : EngineState) (cause : EngineCause) (s : State) :
    (enterEngine new cause s).drm = s.drm := by
  unfold enterEngine
  simp

@[simp] theorem enterEngine_rst (new : EngineState) (cause : EngineCause) (s : State) :
    (enterEngine new cause s).rst = s.rst := by
  unfold enterEngine
  simp

@[simp] theorem enterEngine_pending (new : EngineState) (cause : EngineCause) (s : State) :
    (enterEngine new cause s).pending = s.pending := by
  unfold enterEngine
  simp

@[simp] theorem handBroadcast_link (b : Broadcast) (s : State) :
    (handBroadcast b s).link = s.link := by
  simp [handBroadcast]

@[simp] theorem handBroadcast_scm (b : Broadcast) (s : State) :
    (handBroadcast b s).scm = s.scm := by
  simp [handBroadcast]

@[simp] theorem handBroadcast_fen (b : Broadcast) (s : State) :
    (handBroadcast b s).fen = s.fen := by
  simp [handBroadcast]

@[simp] theorem handBroadcast_drm (b : Broadcast) (s : State) :
    (handBroadcast b s).drm = s.drm := by
  simp [handBroadcast]

@[simp] theorem handBroadcast_rst (b : Broadcast) (s : State) :
    (handBroadcast b s).rst = s.rst := by
  simp [handBroadcast]

@[simp] theorem handBroadcast_rep (b : Broadcast) (s : State) :
    (handBroadcast b s).rep = s.rep := by
  simp [handBroadcast]

@[simp] theorem handBroadcast_pending (b : Broadcast) (s : State) :
    (handBroadcast b s).pending = s.pending := by
  simp [handBroadcast]

@[simp] theorem passTime_link (n : Nat) (s : State) :
    (passTime n s).link = s.link := by
  unfold passTime
  simp

@[simp] theorem passTime_scm (n : Nat) (s : State) :
    (passTime n s).scm = s.scm := by
  unfold passTime
  simp

@[simp] theorem passTime_btx (n : Nat) (s : State) :
    (passTime n s).btx = s.btx := by
  unfold passTime
  simp

@[simp] theorem passTime_drm (n : Nat) (s : State) :
    (passTime n s).drm = s.drm := by
  unfold passTime
  simp

@[simp] theorem passTime_rst (n : Nat) (s : State) :
    (passTime n s).rst = s.rst := by
  unfold passTime
  simp

@[simp] theorem passTime_rep (n : Nat) (s : State) :
    (passTime n s).rep = s.rep := by
  unfold passTime
  simp

@[simp] theorem passTime_pending (n : Nat) (s : State) :
    (passTime n s).pending = s.pending := by
  unfold passTime
  simp

@[simp] theorem hear_link (n : Nat) (line : List Level) (s : State) :
    (hear n line s).link = s.link := by
  simp [hear]

@[simp] theorem hear_scm (n : Nat) (line : List Level) (s : State) :
    (hear n line s).scm = s.scm := by
  simp [hear]

@[simp] theorem hear_drm (n : Nat) (line : List Level) (s : State) :
    (hear n line s).drm = s.drm := by
  simp [hear]

@[simp] theorem hear_rst (n : Nat) (line : List Level) (s : State) :
    (hear n line s).rst = s.rst := by
  simp [hear]

@[simp] theorem hear_rep (n : Nat) (line : List Level) (s : State) :
    (hear n line s).rep = s.rep := by
  simp [hear]

@[simp] theorem hear_pending (n : Nat) (line : List Level) (s : State) :
    (hear n line s).pending = s.pending := by
  simp [hear]

@[simp] theorem hearAll_link (line : List Level) (s : State) :
    (hearAll line s).link = s.link := by
  simp [hearAll]

@[simp] theorem hearAll_scm (line : List Level) (s : State) :
    (hearAll line s).scm = s.scm := by
  simp [hearAll]

@[simp] theorem hearAll_drm (line : List Level) (s : State) :
    (hearAll line s).drm = s.drm := by
  simp [hearAll]

@[simp] theorem hearAll_rst (line : List Level) (s : State) :
    (hearAll line s).rst = s.rst := by
  simp [hearAll]

@[simp] theorem hearAll_rep (line : List Level) (s : State) :
    (hearAll line s).rep = s.rep := by
  simp [hearAll]

@[simp] theorem hearAll_pending (line : List Level) (s : State) :
    (hearAll line s).pending = s.pending := by
  simp [hearAll]

@[simp] theorem drive_link (n : Nat) (s : State) :
    (drive n s).link = s.link := by
  simp [drive]

@[simp] theorem drive_scm (n : Nat) (s : State) :
    (drive n s).scm = s.scm := by
  simp [drive]

@[simp] theorem drive_drm (n : Nat) (s : State) :
    (drive n s).drm = s.drm := by
  simp [drive]

@[simp] theorem drive_rst (n : Nat) (s : State) :
    (drive n s).rst = s.rst := by
  simp [drive]

@[simp] theorem drive_rep (n : Nat) (s : State) :
    (drive n s).rep = s.rep := by
  simp [drive]

@[simp] theorem drive_pending (n : Nat) (s : State) :
    (drive n s).pending = s.pending := by
  simp [drive]

end Sys2Proof.Machine
end

