-- ==== Sys2Proof/Laws/WalkFrames.lean ====
section
/-! SUPPORT. What the operations of the frame walk leave unchanged, block by block. -/

namespace Sys2Proof.Machine

@[simp] theorem frameBegun_link (s : State) :
    (frameBegun s).link = s.link := by
  unfold frameBegun
  simp

@[simp] theorem frameBegun_scm (s : State) :
    (frameBegun s).scm = s.scm := by
  unfold frameBegun
  simp

@[simp] theorem frameBegun_fen (s : State) :
    (frameBegun s).fen = s.fen := by
  unfold frameBegun
  simp

@[simp] theorem frameBegun_btx (s : State) :
    (frameBegun s).btx = s.btx := by
  unfold frameBegun
  simp

@[simp] theorem frameBegun_rst (s : State) :
    (frameBegun s).rst = s.rst := by
  unfold frameBegun
  simp

@[simp] theorem frameBegun_rep (s : State) :
    (frameBegun s).rep = s.rep := by
  unfold frameBegun
  simp

@[simp] theorem frameBegun_pending (s : State) :
    (frameBegun s).pending = s.pending := by
  unfold frameBegun
  simp

@[simp] theorem probeBegun_link (d : Fin Config.dropCount) (s : State) :
    (probeBegun d s).link = s.link := by
  unfold probeBegun
  simp

@[simp] theorem probeBegun_scm (d : Fin Config.dropCount) (s : State) :
    (probeBegun d s).scm = s.scm := by
  unfold probeBegun
  simp

@[simp] theorem probeBegun_fen (d : Fin Config.dropCount) (s : State) :
    (probeBegun d s).fen = s.fen := by
  unfold probeBegun
  simp

@[simp] theorem probeBegun_btx (d : Fin Config.dropCount) (s : State) :
    (probeBegun d s).btx = s.btx := by
  unfold probeBegun
  simp

@[simp] theorem probeBegun_rst (d : Fin Config.dropCount) (s : State) :
    (probeBegun d s).rst = s.rst := by
  unfold probeBegun
  simp

@[simp] theorem probeBegun_rep (d : Fin Config.dropCount) (s : State) :
    (probeBegun d s).rep = s.rep := by
  unfold probeBegun
  simp

@[simp] theorem probeBegun_pending (d : Fin Config.dropCount) (s : State) :
    (probeBegun d s).pending = s.pending := by
  unfold probeBegun
  simp

@[simp] theorem applyDrop_link (d : Fin Config.dropCount) (out : DropRec × Option DropChange) (s : State) :
    (applyDrop d out s).link = s.link := by
  unfold applyDrop
  dsimp only
  repeat' split
  all_goals simp

@[simp] theorem applyDrop_scm (d : Fin Config.dropCount) (out : DropRec × Option DropChange) (s : State) :
    (applyDrop d out s).scm = s.scm := by
  unfold applyDrop
  dsimp only
  repeat' split
  all_goals simp

@[simp] theorem applyDrop_fen (d : Fin Config.dropCount) (out : DropRec × Option DropChange) (s : State) :
    (applyDrop d out s).fen = s.fen := by
  unfold applyDrop
  dsimp only
  repeat' split
  all_goals simp

@[simp] theorem applyDrop_btx (d : Fin Config.dropCount) (out : DropRec × Option DropChange) (s : State) :
    (applyDrop d out s).btx = s.btx := by
  unfold applyDrop
  dsimp only
  repeat' split
  all_goals simp

@[simp] theorem applyDrop_rst (d : Fin Config.dropCount) (out : DropRec × Option DropChange) (s : State) :
    (applyDrop d out s).rst = s.rst := by
  unfold applyDrop
  dsimp only
  repeat' split
  all_goals simp

@[simp] theorem applyDrop_pending (d : Fin Config.dropCount) (out : DropRec × Option DropChange) (s : State) :
    (applyDrop d out s).pending = s.pending := by
  unfold applyDrop
  dsimp only
  repeat' split
  all_goals simp

@[simp] theorem dropOutcome_link (d : Fin Config.dropCount) (success : Bool) (s : State) :
    (dropOutcome d success s).link = s.link := by
  simp [dropOutcome]

@[simp] theorem dropOutcome_scm (d : Fin Config.dropCount) (success : Bool) (s : State) :
    (dropOutcome d success s).scm = s.scm := by
  simp [dropOutcome]

@[simp] theorem dropOutcome_fen (d : Fin Config.dropCount) (success : Bool) (s : State) :
    (dropOutcome d success s).fen = s.fen := by
  simp [dropOutcome]

@[simp] theorem dropOutcome_btx (d : Fin Config.dropCount) (success : Bool) (s : State) :
    (dropOutcome d success s).btx = s.btx := by
  simp [dropOutcome]

@[simp] theorem dropOutcome_rst (d : Fin Config.dropCount) (success : Bool) (s : State) :
    (dropOutcome d success s).rst = s.rst := by
  simp [dropOutcome]

@[simp] theorem dropOutcome_pending (d : Fin Config.dropCount) (success : Bool) (s : State) :
    (dropOutcome d success s).pending = s.pending := by
  simp [dropOutcome]

@[simp] theorem probeOutcome_link (r : AttemptResult) (s : State) :
    (probeOutcome r s).link = s.link := by
  unfold probeOutcome
  dsimp only
  repeat' split
  all_goals simp

@[simp] theorem probeOutcome_scm (r : AttemptResult) (s : State) :
    (probeOutcome r s).scm = s.scm := by
  unfold probeOutcome
  dsimp only
  repeat' split
  all_goals simp

@[simp] theorem probeOutcome_fen (r : AttemptResult) (s : State) :
    (probeOutcome r s).fen = s.fen := by
  unfold probeOutcome
  dsimp only
  repeat' split
  all_goals simp

@[simp] theorem probeOutcome_btx (r : AttemptResult) (s : State) :
    (probeOutcome r s).btx = s.btx := by
  unfold probeOutcome
  dsimp only
  repeat' split
  all_goals simp

@[simp] theorem probeOutcome_rst (r : AttemptResult) (s : State) :
    (probeOutcome r s).rst = s.rst := by
  unfold probeOutcome
  dsimp only
  repeat' split
  all_goals simp

@[simp] theorem probeOutcome_pending (r : AttemptResult) (s : State) :
    (probeOutcome r s).pending = s.pending := by
  unfold probeOutcome
  dsimp only
  repeat' split
  all_goals simp

@[simp] theorem serviceHandover_link (d : Fin Config.dropCount) (flag : Bool) (s : State) :
    (serviceHandover d flag s).link = s.link := by
  unfold serviceHandover
  dsimp only
  repeat' split
  all_goals simp

@[simp] theorem serviceHandover_scm (d : Fin Config.dropCount) (flag : Bool) (s : State) :
    (serviceHandover d flag s).scm = s.scm := by
  unfold serviceHandover
  dsimp only
  repeat' split
  all_goals simp

@[simp] theorem serviceHandover_fen (d : Fin Config.dropCount) (flag : Bool) (s : State) :
    (serviceHandover d flag s).fen = s.fen := by
  unfold serviceHandover
  dsimp only
  repeat' split
  all_goals simp

@[simp] theorem serviceHandover_btx (d : Fin Config.dropCount) (flag : Bool) (s : State) :
    (serviceHandover d flag s).btx = s.btx := by
  unfold serviceHandover
  dsimp only
  repeat' split
  all_goals simp

@[simp] theorem serviceHandover_rst (d : Fin Config.dropCount) (flag : Bool) (s : State) :
    (serviceHandover d flag s).rst = s.rst := by
  unfold serviceHandover
  dsimp only
  repeat' split
  all_goals simp

@[simp] theorem serviceHandover_pending (d : Fin Config.dropCount) (flag : Bool) (s : State) :
    (serviceHandover d flag s).pending = s.pending := by
  unfold serviceHandover
  dsimp only
  repeat' split
  all_goals simp

@[simp] theorem putSet_link (k : Fin Config.setCount) (r : SetRec) (s : State) :
    (putSet k r s).link = s.link := by
  simp [putSet]

@[simp] theorem putSet_scm (k : Fin Config.setCount) (r : SetRec) (s : State) :
    (putSet k r s).scm = s.scm := by
  simp [putSet]

@[simp] theorem putSet_fen (k : Fin Config.setCount) (r : SetRec) (s : State) :
    (putSet k r s).fen = s.fen := by
  simp [putSet]

@[simp] theorem putSet_btx (k : Fin Config.setCount) (r : SetRec) (s : State) :
    (putSet k r s).btx = s.btx := by
  simp [putSet]

@[simp] theorem putSet_drm (k : Fin Config.setCount) (r : SetRec) (s : State) :
    (putSet k r s).drm = s.drm := by
  simp [putSet]

@[simp] theorem putSet_rep (k : Fin Config.setCount) (r : SetRec) (s : State) :
    (putSet k r s).rep = s.rep := by
  simp [putSet]

@[simp] theorem putSet_pending (k : Fin Config.setCount) (r : SetRec) (s : State) :
    (putSet k r s).pending = s.pending := by
  simp [putSet]

@[simp] theorem deposit_link (k : Fin Config.setCount) (x : Sample) (s : State) :
    (deposit k x s).link = s.link := by
  unfold deposit
  dsimp only
  repeat' split
  all_goals simp

@[simp] theorem deposit_scm (k : Fin Config.setCount) (x : Sample) (s : State) :
    (deposit k x s).scm = s.scm := by
  unfold deposit
  dsimp only
  repeat' split
  all_goals simp

@[simp] theorem deposit_fen (k : Fin Config.setCount) (x : Sample) (s : State) :
    (deposit k x s).fen = s.fen := by
  unfold deposit
  dsimp only
  repeat' split
  all_goals simp

@[simp] theorem deposit_btx (k : Fin Config.setCount) (x : Sample) (s : State) :
    (deposit k x s).btx = s.btx := by
  unfold deposit
  dsimp only
  repeat' split
  all_goals simp

@[simp] theorem deposit_drm (k : Fin Config.setCount) (x : Sample) (s : State) :
    (deposit k x s).drm = s.drm := by
  unfold deposit
  dsimp only
  repeat' split
  all_goals simp

@[simp] theorem deposit_pending (k : Fin Config.setCount) (x : Sample) (s : State) :
    (deposit k x s).pending = s.pending := by
  unfold deposit
  dsimp only
  repeat' split
  all_goals simp

@[simp] theorem startItem_link (src : ItemSource) (retries : Nat) (c : Capture) (s : State) :
    (startItem src retries c s).link = s.link := by
  unfold startItem
  simp

@[simp] theorem startItem_scm (src : ItemSource) (retries : Nat) (c : Capture) (s : State) :
    (startItem src retries c s).scm = s.scm := by
  unfold startItem
  simp

@[simp] theorem startItem_drm (src : ItemSource) (retries : Nat) (c : Capture) (s : State) :
    (startItem src retries c s).drm = s.drm := by
  unfold startItem
  simp

@[simp] theorem startItem_rst (src : ItemSource) (retries : Nat) (c : Capture) (s : State) :
    (startItem src retries c s).rst = s.rst := by
  unfold startItem
  simp

@[simp] theorem startItem_rep (src : ItemSource) (retries : Nat) (c : Capture) (s : State) :
    (startItem src retries c s).rep = s.rep := by
  unfold startItem
  simp

@[simp] theorem startItem_pending (src : ItemSource) (retries : Nat) (c : Capture) (s : State) :
    (startItem src retries c s).pending = s.pending := by
  unfold startItem
  simp

@[simp] theorem adHocNotReady_link (h : AdHoc) (rest : List AdHoc) (s : State) :
    (adHocNotReady h rest s).link = s.link := by
  unfold adHocNotReady
  simp

@[simp] theorem adHocNotReady_scm (h : AdHoc) (rest : List AdHoc) (s : State) :
    (adHocNotReady h rest s).scm = s.scm := by
  unfold adHocNotReady
  simp

@[simp] theorem adHocNotReady_btx (h : AdHoc) (rest : List AdHoc) (s : State) :
    (adHocNotReady h rest s).btx = s.btx := by
  unfold adHocNotReady
  simp

@[simp] theorem adHocNotReady_drm (h : AdHoc) (rest : List AdHoc) (s : State) :
    (adHocNotReady h rest s).drm = s.drm := by
  unfold adHocNotReady
  simp

@[simp] theorem adHocNotReady_rst (h : AdHoc) (rest : List AdHoc) (s : State) :
    (adHocNotReady h rest s).rst = s.rst := by
  unfold adHocNotReady
  simp

@[simp] theorem adHocNotReady_pending (h : AdHoc) (rest : List AdHoc) (s : State) :
    (adHocNotReady h rest s).pending = s.pending := by
  unfold adHocNotReady
  simp

@[simp] theorem serveAdHoc_link (q : List AdHoc) (s : State) :
    (serveAdHoc q s).link = s.link := by
  induction q generalizing s with
  | nil => simp [serveAdHoc]
  | cons h rest ih => simp only [serveAdHoc]; repeat' split
                      all_goals simp [*]

@[simp] theorem serveAdHoc_scm (q : List AdHoc) (s : State) :
    (serveAdHoc q s).scm = s.scm := by
  induction q generalizing s with
  | nil => simp [serveAdHoc]
  | cons h rest ih => simp only [serveAdHoc]; repeat' split
                      all_goals simp [*]

@[simp] theorem serveAdHoc_drm (q : List AdHoc) (s : State) :
    (serveAdHoc q s).drm = s.drm := by
  induction q generalizing s with
  | nil => simp [serveAdHoc]
  | cons h rest ih => simp only [serveAdHoc]; repeat' split
                      all_goals simp [*]

@[simp] theorem serveAdHoc_rst (q : List AdHoc) (s : State) :
    (serveAdHoc q s).rst = s.rst := by
  induction q generalizing s with
  | nil => simp [serveAdHoc]
  | cons h rest ih => simp only [serveAdHoc]; repeat' split
                      all_goals simp [*]

@[simp] theorem serveAdHoc_pending (q : List AdHoc) (s : State) :
    (serveAdHoc q s).pending = s.pending := by
  induction q generalizing s with
  | nil => simp [serveAdHoc]
  | cons h rest ih => simp only [serveAdHoc]; repeat' split
                      all_goals simp [*]

@[simp] theorem adHocStage_link (s : State) :
    (adHocStage s).link = s.link := by
  unfold adHocStage
  simp

@[simp] theorem adHocStage_scm (s : State) :
    (adHocStage s).scm = s.scm := by
  unfold adHocStage
  simp

@[simp] theorem adHocStage_drm (s : State) :
    (adHocStage s).drm = s.drm := by
  unfold adHocStage
  simp

@[simp] theorem adHocStage_rst (s : State) :
    (adHocStage s).rst = s.rst := by
  unfold adHocStage
  simp

@[simp] theorem adHocStage_pending (s : State) :
    (adHocStage s).pending = s.pending := by
  unfold adHocStage
  simp

@[simp] theorem probeStage_link (s : State) :
    (probeStage s).link = s.link := by
  unfold probeStage
  dsimp only
  repeat' split
  all_goals simp

@[simp] theorem probeStage_scm (s : State) :
    (probeStage s).scm = s.scm := by
  unfold probeStage
  dsimp only
  repeat' split
  all_goals simp

@[simp] theorem probeStage_rst (s : State) :
    (probeStage s).rst = s.rst := by
  unfold probeStage
  dsimp only
  repeat' split
  all_goals simp

@[simp] theorem probeStage_pending (s : State) :
    (probeStage s).pending = s.pending := by
  unfold probeStage
  dsimp only
  repeat' split
  all_goals simp

@[simp] theorem putBody_link (i : Fin Config.entryCount) (b : EntryBody) (s : State) :
    (putBody i b s).link = s.link := by
  unfold putBody
  simp

@[simp] theorem putBody_fen (i : Fin Config.entryCount) (b : EntryBody) (s : State) :
    (putBody i b s).fen = s.fen := by
  unfold putBody
  simp

@[simp] theorem putBody_btx (i : Fin Config.entryCount) (b : EntryBody) (s : State) :
    (putBody i b s).btx = s.btx := by
  unfold putBody
  simp

@[simp] theorem putBody_drm (i : Fin Config.entryCount) (b : EntryBody) (s : State) :
    (putBody i b s).drm = s.drm := by
  unfold putBody
  simp

@[simp] theorem putBody_rst (i : Fin Config.entryCount) (b : EntryBody) (s : State) :
    (putBody i b s).rst = s.rst := by
  unfold putBody
  simp

@[simp] theorem putBody_rep (i : Fin Config.entryCount) (b : EntryBody) (s : State) :
    (putBody i b s).rep = s.rep := by
  unfold putBody
  simp

@[simp] theorem putBody_pending (i : Fin Config.entryCount) (b : EntryBody) (s : State) :
    (putBody i b s).pending = s.pending := by
  unfold putBody
  simp

@[simp] theorem raiseSkips_link (s : State) :
    (raiseSkips s).link = s.link := by
  simp only [raiseSkips]
  repeat' split
  all_goals simp

@[simp] theorem raiseSkips_scm (s : State) :
    (raiseSkips s).scm = s.scm := by
  simp only [raiseSkips]
  repeat' split
  all_goals simp

@[simp] theorem raiseSkips_fen (s : State) :
    (raiseSkips s).fen = s.fen := by
  simp only [raiseSkips]
  repeat' split
  all_goals simp

@[simp] theorem raiseSkips_btx (s : State) :
    (raiseSkips s).btx = s.btx := by
  simp only [raiseSkips]
  repeat' split
  all_goals simp

@[simp] theorem raiseSkips_drm (s : State) :
    (raiseSkips s).drm = s.drm := by
  simp only [raiseSkips]
  repeat' split
  all_goals simp

@[simp] theorem raiseSkips_rst (s : State) :
    (raiseSkips s).rst = s.rst := by
  simp only [raiseSkips]
  repeat' split
  all_goals simp

@[simp] theorem raiseSkips_pending (s : State) :
    (raiseSkips s).pending = s.pending := by
  simp only [raiseSkips]
  repeat' split
  all_goals simp

@[simp] theorem walkPeriodic_link (q : List PlanPair) (s : State) :
    (walkPeriodic q s).link = s.link := by
  induction q generalizing s with
  | nil => simp [walkPeriodic]
  | cons h rest ih => simp only [walkPeriodic]; repeat' split
                      all_goals simp [*]

@[simp] theorem walkPeriodic_rst (q : List PlanPair) (s : State) :
    (walkPeriodic q s).rst = s.rst := by
  induction q generalizing s with
  | nil => simp [walkPeriodic]
  | cons h rest ih => simp only [walkPeriodic]; repeat' split
                      all_goals simp [*]

@[simp] theorem walkPeriodic_pending (q : List PlanPair) (s : State) :
    (walkPeriodic q s).pending = s.pending := by
  induction q generalizing s with
  | nil => simp [walkPeriodic]
  | cons h rest ih => simp only [walkPeriodic]; repeat' split
                      all_goals simp [*]

@[simp] theorem continueWalk_link (s : State) :
    (continueWalk s).link = s.link := by
  unfold continueWalk
  dsimp only
  repeat' split
  all_goals simp

@[simp] theorem continueWalk_rst (s : State) :
    (continueWalk s).rst = s.rst := by
  unfold continueWalk
  dsimp only
  repeat' split
  all_goals simp

@[simp] theorem continueWalk_pending (s : State) :
    (continueWalk s).pending = s.pending := by
  unfold continueWalk
  dsimp only
  repeat' split
  all_goals simp

@[simp] theorem goQuiet_link (cause : EngineCause) (s : State) :
    (goQuiet cause s).link = s.link := by
  unfold goQuiet
  simp

@[simp] theorem goQuiet_scm (cause : EngineCause) (s : State) :
    (goQuiet cause s).scm = s.scm := by
  unfold goQuiet
  simp

@[simp] theorem goQuiet_drm (cause : EngineCause) (s : State) :
    (goQuiet cause s).drm = s.drm := by
  unfold goQuiet
  simp

@[simp] theorem goQuiet_rst (cause : EngineCause) (s : State) :
    (goQuiet cause s).rst = s.rst := by
  unfold goQuiet
  simp

@[simp] theorem goQuiet_pending (cause : EngineCause) (s : State) :
    (goQuiet cause s).pending = s.pending := by
  unfold goQuiet
  simp

@[simp] theorem enterStopped_link (cause : EngineCause) (s : State) :
    (enterStopped cause s).link = s.link := by
  unfold enterStopped
  dsimp only
  repeat' split
  all_goals simp

@[simp] theorem enterStopped_scm (cause : EngineCause) (s : State) :
    (enterStopped cause s).scm = s.scm := by
  unfold enterStopped
  dsimp only
  repeat' split
  all_goals simp

@[simp] theorem enterStopped_btx (cause : EngineCause) (s : State) :
    (enterStopped cause s).btx = s.btx := by
  unfold enterStopped
  dsimp only
  repeat' split
  all_goals simp

@[simp] theorem enterStopped_drm (cause : EngineCause) (s : State) :
    (enterStopped cause s).drm = s.drm := by
  unfold enterStopped
  dsimp only
  repeat' split
  all_goals simp

@[simp] theorem enterStopped_rst (cause : EngineCause) (s : State) :
    (enterStopped cause s).rst = s.rst := by
  unfold enterStopped
  dsimp only
  repeat' split
  all_goals simp

@[simp] theorem enterStopped_pending (cause : EngineCause) (s : State) :
    (enterStopped cause s).pending = s.pending := by
  unfold enterStopped
  dsimp only
  repeat' split
  all_goals simp

@[simp] theorem carryQuiet_scm (cause : EngineCause) (s : State) :
    (carryQuiet cause s).scm = s.scm := by
  simp only [carryQuiet]
  repeat' split
  all_goals simp

@[simp] theorem carryQuiet_drm (cause : EngineCause) (s : State) :
    (carryQuiet cause s).drm = s.drm := by
  simp only [carryQuiet]
  repeat' split
  all_goals simp

@[simp] theorem carryQuiet_rst (cause : EngineCause) (s : State) :
    (carryQuiet cause s).rst = s.rst := by
  simp only [carryQuiet]
  repeat' split
  all_goals simp

@[simp] theorem carryQuiet_pending (cause : EngineCause) (s : State) :
    (carryQuiet cause s).pending = s.pending := by
  simp only [carryQuiet]
  repeat' split
  all_goals simp

@[simp] theorem haltingEnds_scm (s : State) :
    (haltingEnds s).scm = s.scm := by
  simp [haltingEnds]

@[simp] theorem haltingEnds_drm (s : State) :
    (haltingEnds s).drm = s.drm := by
  simp [haltingEnds]

@[simp] theorem haltingEnds_rst (s : State) :
    (haltingEnds s).rst = s.rst := by
  simp [haltingEnds]

@[simp] theorem haltingEnds_pending (s : State) :
    (haltingEnds s).pending = s.pending := by
  simp [haltingEnds]

@[simp] theorem clearItem_link (s : State) :
    (clearItem s).link = s.link := by
  unfold clearItem
  simp

@[simp] theorem clearItem_scm (s : State) :
    (clearItem s).scm = s.scm := by
  unfold clearItem
  simp

@[simp] theorem clearItem_drm (s : State) :
    (clearItem s).drm = s.drm := by
  unfold clearItem
  simp

@[simp] theorem clearItem_rst (s : State) :
    (clearItem s).rst = s.rst := by
  unfold clearItem
  simp

@[simp] theorem clearItem_rep (s : State) :
    (clearItem s).rep = s.rep := by
  unfold clearItem
  simp

@[simp] theorem clearItem_pending (s : State) :
    (clearItem s).pending = s.pending := by
  unfold clearItem
  simp

@[simp] theorem routeDeposit_link (p : PlanPair) (route : Route) (fault service : Bool) (values : List Word) (s : State) :
    (routeDeposit p route fault service values s).link = s.link := by
  unfold routeDeposit
  dsimp only
  repeat' split
  all_goals simp

@[simp] theorem routeDeposit_scm (p : PlanPair) (route : Route) (fault service : Bool) (values : List Word) (s : State) :
    (routeDeposit p route fault service values s).scm = s.scm := by
  unfold routeDeposit
  dsimp only
  repeat' split
  all_goals simp

@[simp] theorem routeDeposit_fen (p : PlanPair) (route : Route) (fault service : Bool) (values : List Word) (s : State) :
    (routeDeposit p route fault service values s).fen = s.fen := by
  unfold routeDeposit
  dsimp only
  repeat' split
  all_goals simp

@[simp] theorem routeDeposit_btx (p : PlanPair) (route : Route) (fault service : Bool) (values : List Word) (s : State) :
    (routeDeposit p route fault service values s).btx = s.btx := by
  unfold routeDeposit
  dsimp only
  repeat' split
  all_goals simp

@[simp] theorem routeDeposit_drm (p : PlanPair) (route : Route) (fault service : Bool) (values : List Word) (s : State) :
    (routeDeposit p route fault service values s).drm = s.drm := by
  unfold routeDeposit
  dsimp only
  repeat' split
  all_goals simp

@[simp] theorem routeDeposit_pending (p : PlanPair) (route : Route) (fault service : Bool) (values : List Word) (s : State) :
    (routeDeposit p route fault service values s).pending = s.pending := by
  unfold routeDeposit
  dsimp only
  repeat' split
  all_goals simp

@[simp] theorem recordPeriodic_link (p : PlanPair) (d : Fin Config.dropCount) (r : AttemptResult) (s : State) :
    (recordPeriodic p d r s).link = s.link := by
  unfold recordPeriodic
  dsimp only
  repeat' split
  all_goals simp

@[simp] theorem recordPeriodic_fen (p : PlanPair) (d : Fin Config.dropCount) (r : AttemptResult) (s : State) :
    (recordPeriodic p d r s).fen = s.fen := by
  unfold recordPeriodic
  dsimp only
  repeat' split
  all_goals simp

@[simp] theorem recordPeriodic_btx (p : PlanPair) (d : Fin Config.dropCount) (r : AttemptResult) (s : State) :
    (recordPeriodic p d r s).btx = s.btx := by
  unfold recordPeriodic
  dsimp only
  repeat' split
  all_goals simp

@[simp] theorem recordPeriodic_pending (p : PlanPair) (d : Fin Config.dropCount) (r : AttemptResult) (s : State) :
    (recordPeriodic p d r s).pending = s.pending := by
  unfold recordPeriodic
  dsimp only
  repeat' split
  all_goals simp

@[simp] theorem recordAdHoc_link (ticket : Word) (mark : Bool) (it : Item) (d : Fin Config.dropCount) (r : AttemptResult) (s : State) :
    (recordAdHoc ticket mark it d r s).link = s.link := by
  unfold recordAdHoc
  dsimp only
  repeat' split
  all_goals simp

@[simp] theorem recordAdHoc_scm (ticket : Word) (mark : Bool) (it : Item) (d : Fin Config.dropCount) (r : AttemptResult) (s : State) :
    (recordAdHoc ticket mark it d r s).scm = s.scm := by
  unfold recordAdHoc
  dsimp only
  repeat' split
  all_goals simp

@[simp] theorem recordAdHoc_rst (ticket : Word) (mark : Bool) (it : Item) (d : Fin Config.dropCount) (r : AttemptResult) (s : State) :
    (recordAdHoc ticket mark it d r s).rst = s.rst := by
  unfold recordAdHoc
  dsimp only
  repeat' split
  all_goals simp

@[simp] theorem recordAdHoc_pending (ticket : Word) (mark : Bool) (it : Item) (d : Fin Config.dropCount) (r : AttemptResult) (s : State) :
    (recordAdHoc ticket mark it d r s).pending = s.pending := by
  unfold recordAdHoc
  dsimp only
  repeat' split
  all_goals simp

@[simp] theorem recordItem_link (it : Item) (d : Fin Config.dropCount) (r : AttemptResult) (s : State) :
    (recordItem it d r s).link = s.link := by
  simp only [recordItem]
  repeat' split
  all_goals simp

@[simp] theorem recordItem_pending (it : Item) (d : Fin Config.dropCount) (r : AttemptResult) (s : State) :
    (recordItem it d r s).pending = s.pending := by
  simp only [recordItem]
  repeat' split
  all_goals simp

@[simp] theorem judgeNext_link (s : State) : (judgeNext s).link = s.link := by simp [judgeNext]

@[simp] theorem judgeNext_rst (s : State) : (judgeNext s).rst = s.rst := by simp [judgeNext]

@[simp] theorem judgeNext_pending (s : State) : (judgeNext s).pending = s.pending := by simp [judgeNext]

@[simp] theorem leaveJudgement_link (s : State) : (leaveJudgement s).link = s.link := by
  unfold leaveJudgement endPeriodic
  dsimp only
  split <;> simp

@[simp] theorem leaveJudgement_scm (s : State) : (leaveJudgement s).scm = s.scm := by
  unfold leaveJudgement endPeriodic
  dsimp only
  split <;> simp

@[simp] theorem leaveJudgement_btx (s : State) : (leaveJudgement s).btx = s.btx := by
  unfold leaveJudgement endPeriodic
  dsimp only
  split <;> simp

@[simp] theorem leaveJudgement_drm (s : State) : (leaveJudgement s).drm = s.drm := by
  unfold leaveJudgement endPeriodic
  dsimp only
  split <;> simp

@[simp] theorem leaveJudgement_rst (s : State) : (leaveJudgement s).rst = s.rst := by
  unfold leaveJudgement endPeriodic
  dsimp only
  split <;> simp

@[simp] theorem leaveJudgement_pending (s : State) : (leaveJudgement s).pending = s.pending := by
  unfold leaveJudgement endPeriodic
  dsimp only
  split <;> simp

/-- What is left due changes the stage and the mark that says so, and nothing else of FEN (R35, R45). -/
theorem leaveJudgement_fen (s : State) :
    (leaveJudgement s).fen = { s.fen with
      stage := if s.fen.stage = .periodic ∧ s.fen.plan.length ≤ s.fen.planPos then .periodicEnded else s.fen.stage,
      judgeDue := true } := by
  unfold leaveJudgement endPeriodic
  dsimp only
  split <;> simp

@[simp] theorem afterItem_rst (held : Bool) (s : State) :
    (afterItem held s).rst = s.rst := by
  unfold afterItem
  repeat' split
  all_goals simp

@[simp] theorem afterItem_pending (held : Bool) (s : State) :
    (afterItem held s).pending = s.pending := by
  unfold afterItem
  repeat' split
  all_goals simp

@[simp] theorem attemptEnded_pending (it : Item) (c : Capture) (r : AttemptResult) (held : Bool) (s : State) :
    (attemptEnded it c r held s).pending = s.pending := by
  unfold attemptEnded
  dsimp only
  repeat' split
  all_goals simp

@[simp] theorem jammedStart_link (s : State) :
    (jammedStart s).link = s.link := by
  unfold jammedStart
  dsimp only
  repeat' split
  all_goals simp

@[simp] theorem jammedStart_scm (s : State) :
    (jammedStart s).scm = s.scm := by
  unfold jammedStart
  dsimp only
  repeat' split
  all_goals simp

@[simp] theorem jammedStart_btx (s : State) :
    (jammedStart s).btx = s.btx := by
  unfold jammedStart
  dsimp only
  repeat' split
  all_goals simp

@[simp] theorem jammedStart_drm (s : State) :
    (jammedStart s).drm = s.drm := by
  unfold jammedStart
  dsimp only
  repeat' split
  all_goals simp

@[simp] theorem jammedStart_rst (s : State) :
    (jammedStart s).rst = s.rst := by
  unfold jammedStart
  dsimp only
  repeat' split
  all_goals simp

@[simp] theorem jammedStart_pending (s : State) :
    (jammedStart s).pending = s.pending := by
  unfold jammedStart
  dsimp only
  repeat' split
  all_goals simp

@[simp] theorem cleanStart_link (s : State) :
    (cleanStart s).link = s.link := by
  unfold cleanStart
  simp

@[simp] theorem cleanStart_scm (s : State) :
    (cleanStart s).scm = s.scm := by
  unfold cleanStart
  simp

@[simp] theorem cleanStart_drm (s : State) :
    (cleanStart s).drm = s.drm := by
  unfold cleanStart
  simp

@[simp] theorem cleanStart_rst (s : State) :
    (cleanStart s).rst = s.rst := by
  unfold cleanStart
  simp

@[simp] theorem cleanStart_rep (s : State) :
    (cleanStart s).rep = s.rep := by
  unfold cleanStart
  simp

@[simp] theorem cleanStart_pending (s : State) :
    (cleanStart s).pending = s.pending := by
  unfold cleanStart
  simp

@[simp] theorem frameStart_link (s : State) :
    (frameStart s).link = s.link := by
  unfold frameStart
  dsimp only
  repeat' split
  all_goals simp

@[simp] theorem frameStart_scm (s : State) :
    (frameStart s).scm = s.scm := by
  unfold frameStart
  dsimp only
  repeat' split
  all_goals simp

@[simp] theorem frameStart_rst (s : State) :
    (frameStart s).rst = s.rst := by
  unfold frameStart
  dsimp only
  repeat' split
  all_goals simp

@[simp] theorem frameStart_pending (s : State) :
    (frameStart s).pending = s.pending := by
  unfold frameStart
  dsimp only
  repeat' split
  all_goals simp

@[simp] theorem quietBoundary_scm (s : State) :
    (quietBoundary s).scm = s.scm := by
  simp [quietBoundary]

@[simp] theorem quietBoundary_drm (s : State) :
    (quietBoundary s).drm = s.drm := by
  simp [quietBoundary]

@[simp] theorem quietBoundary_rst (s : State) :
    (quietBoundary s).rst = s.rst := by
  simp [quietBoundary]

@[simp] theorem quietBoundary_pending (s : State) :
    (quietBoundary s).pending = s.pending := by
  simp [quietBoundary]

@[simp] theorem enterWaking_link (cause : EngineCause) (s : State) :
    (enterWaking cause s).link = s.link := by
  unfold enterWaking
  dsimp only
  repeat' split
  all_goals simp

@[simp] theorem enterWaking_scm (cause : EngineCause) (s : State) :
    (enterWaking cause s).scm = s.scm := by
  unfold enterWaking
  dsimp only
  repeat' split
  all_goals simp

@[simp] theorem enterWaking_drm (cause : EngineCause) (s : State) :
    (enterWaking cause s).drm = s.drm := by
  unfold enterWaking
  dsimp only
  repeat' split
  all_goals simp

@[simp] theorem enterWaking_rst (cause : EngineCause) (s : State) :
    (enterWaking cause s).rst = s.rst := by
  unfold enterWaking
  dsimp only
  repeat' split
  all_goals simp

@[simp] theorem enterWaking_pending (cause : EngineCause) (s : State) :
    (enterWaking cause s).pending = s.pending := by
  unfold enterWaking
  dsimp only
  repeat' split
  all_goals simp

@[simp] theorem haltClaim_scm (s : State) :
    (haltClaim s).scm = s.scm := by
  unfold haltClaim
  dsimp only
  repeat' split
  all_goals simp

@[simp] theorem haltClaim_drm (s : State) :
    (haltClaim s).drm = s.drm := by
  unfold haltClaim
  dsimp only
  repeat' split
  all_goals simp

@[simp] theorem haltClaim_rst (s : State) :
    (haltClaim s).rst = s.rst := by
  unfold haltClaim
  dsimp only
  repeat' split
  all_goals simp

@[simp] theorem haltClaim_pending (s : State) :
    (haltClaim s).pending = s.pending := by
  unfold haltClaim
  dsimp only
  repeat' split
  all_goals simp

@[simp] theorem abortInFlight_link (s : State) :
    (abortInFlight s).link = s.link := by
  unfold abortInFlight
  dsimp only
  repeat' split
  all_goals simp

@[simp] theorem abortInFlight_scm (s : State) :
    (abortInFlight s).scm = s.scm := by
  unfold abortInFlight
  dsimp only
  repeat' split
  all_goals simp

@[simp] theorem abortInFlight_btx (s : State) :
    (abortInFlight s).btx = s.btx := by
  unfold abortInFlight
  dsimp only
  repeat' split
  all_goals simp

@[simp] theorem abortInFlight_drm (s : State) :
    (abortInFlight s).drm = s.drm := by
  unfold abortInFlight
  dsimp only
  repeat' split
  all_goals simp

@[simp] theorem abortInFlight_rst (s : State) :
    (abortInFlight s).rst = s.rst := by
  unfold abortInFlight
  dsimp only
  repeat' split
  all_goals simp

@[simp] theorem abortInFlight_pending (s : State) :
    (abortInFlight s).pending = s.pending := by
  unfold abortInFlight
  dsimp only
  repeat' split
  all_goals simp

@[simp] theorem abortQueue_link (q : List AdHoc) (s : State) :
    (abortQueue q s).link = s.link := by
  induction q generalizing s with
  | nil => simp [abortQueue]
  | cons h rest ih => simp [abortQueue, ih]

@[simp] theorem abortQueue_scm (q : List AdHoc) (s : State) :
    (abortQueue q s).scm = s.scm := by
  induction q generalizing s with
  | nil => simp [abortQueue]
  | cons h rest ih => simp [abortQueue, ih]

@[simp] theorem abortQueue_btx (q : List AdHoc) (s : State) :
    (abortQueue q s).btx = s.btx := by
  induction q generalizing s with
  | nil => simp [abortQueue]
  | cons h rest ih => simp [abortQueue, ih]

@[simp] theorem abortQueue_drm (q : List AdHoc) (s : State) :
    (abortQueue q s).drm = s.drm := by
  induction q generalizing s with
  | nil => simp [abortQueue]
  | cons h rest ih => simp [abortQueue, ih]

@[simp] theorem abortQueue_rst (q : List AdHoc) (s : State) :
    (abortQueue q s).rst = s.rst := by
  induction q generalizing s with
  | nil => simp [abortQueue]
  | cons h rest ih => simp [abortQueue, ih]

@[simp] theorem abortQueue_pending (q : List AdHoc) (s : State) :
    (abortQueue q s).pending = s.pending := by
  induction q generalizing s with
  | nil => simp [abortQueue]
  | cons h rest ih => simp [abortQueue, ih]

@[simp] theorem completeReset_scm (s : State) :
    (completeReset s).scm = s.scm := by
  unfold completeReset
  dsimp only
  repeat' split
  all_goals simp

@[simp] theorem completeReset_btx (s : State) :
    (completeReset s).btx = s.btx := by
  unfold completeReset
  dsimp only
  repeat' split
  all_goals simp

@[simp] theorem completeReset_drm (s : State) :
    (completeReset s).drm = s.drm := by
  unfold completeReset
  dsimp only
  repeat' split
  all_goals simp

@[simp] theorem completeReset_rst (s : State) :
    (completeReset s).rst = s.rst := by
  unfold completeReset
  dsimp only
  repeat' split
  all_goals simp

@[simp] theorem completeReset_pending (s : State) :
    (completeReset s).pending = s.pending := by
  unfold completeReset
  dsimp only
  repeat' split
  all_goals simp

@[simp] theorem afterBroadcast_rst (b : Broadcast) (s : State) :
    (afterBroadcast b s).rst = s.rst := by
  unfold afterBroadcast
  dsimp only
  repeat' split
  all_goals simp

@[simp] theorem afterBroadcast_pending (b : Broadcast) (s : State) :
    (afterBroadcast b s).pending = s.pending := by
  unfold afterBroadcast
  dsimp only
  repeat' split
  all_goals simp

end Sys2Proof.Machine
end

