-- ==== Sys2Proof/Laws/EventFrames.lean ====
section
/-! SUPPORT. What the operations of the requests and of the bus leave unchanged, block by block. -/

namespace Sys2Proof.Machine

@[simp] theorem sessionEnd_scm (cause : EndCause) (s : State) :
    (sessionEnd cause s).scm = s.scm := by
  unfold sessionEnd
  dsimp only
  repeat' split
  all_goals simp

@[simp] theorem sessionEnd_drm (cause : EndCause) (s : State) :
    (sessionEnd cause s).drm = s.drm := by
  unfold sessionEnd
  dsimp only
  repeat' split
  all_goals simp

@[simp] theorem sessionEnd_rst (cause : EndCause) (s : State) :
    (sessionEnd cause s).rst = s.rst := by
  unfold sessionEnd
  dsimp only
  repeat' split
  all_goals simp

@[simp] theorem sessionEnd_pending (cause : EndCause) (s : State) :
    (sessionEnd cause s).pending = s.pending := by
  unfold sessionEnd
  dsimp only
  repeat' split
  all_goals simp

@[simp] theorem putEntry_link (i : Fin Config.entryCount) (e : Entry) (s : State) :
    (putEntry i e s).link = s.link := by
  unfold putEntry
  simp

@[simp] theorem putEntry_fen (i : Fin Config.entryCount) (e : Entry) (s : State) :
    (putEntry i e s).fen = s.fen := by
  unfold putEntry
  simp

@[simp] theorem putEntry_btx (i : Fin Config.entryCount) (e : Entry) (s : State) :
    (putEntry i e s).btx = s.btx := by
  unfold putEntry
  simp

@[simp] theorem putEntry_drm (i : Fin Config.entryCount) (e : Entry) (s : State) :
    (putEntry i e s).drm = s.drm := by
  unfold putEntry
  simp

@[simp] theorem putEntry_rst (i : Fin Config.entryCount) (e : Entry) (s : State) :
    (putEntry i e s).rst = s.rst := by
  unfold putEntry
  simp

@[simp] theorem putEntry_rep (i : Fin Config.entryCount) (e : Entry) (s : State) :
    (putEntry i e s).rep = s.rep := by
  unfold putEntry
  simp

@[simp] theorem putEntry_pending (i : Fin Config.entryCount) (e : Entry) (s : State) :
    (putEntry i e s).pending = s.pending := by
  unfold putEntry
  simp

@[simp] theorem putChain_link (k : Fin Config.slotCount) (c : List (Fin Config.entryCount)) (s : State) :
    (putChain k c s).link = s.link := by
  unfold putChain
  simp

@[simp] theorem putChain_fen (k : Fin Config.slotCount) (c : List (Fin Config.entryCount)) (s : State) :
    (putChain k c s).fen = s.fen := by
  unfold putChain
  simp

@[simp] theorem putChain_btx (k : Fin Config.slotCount) (c : List (Fin Config.entryCount)) (s : State) :
    (putChain k c s).btx = s.btx := by
  unfold putChain
  simp

@[simp] theorem putChain_drm (k : Fin Config.slotCount) (c : List (Fin Config.entryCount)) (s : State) :
    (putChain k c s).drm = s.drm := by
  unfold putChain
  simp

@[simp] theorem putChain_rst (k : Fin Config.slotCount) (c : List (Fin Config.entryCount)) (s : State) :
    (putChain k c s).rst = s.rst := by
  unfold putChain
  simp

@[simp] theorem putChain_rep (k : Fin Config.slotCount) (c : List (Fin Config.entryCount)) (s : State) :
    (putChain k c s).rep = s.rep := by
  unfold putChain
  simp

@[simp] theorem putChain_pending (k : Fin Config.slotCount) (c : List (Fin Config.entryCount)) (s : State) :
    (putChain k c s).pending = s.pending := by
  unfold putChain
  simp

@[simp] theorem unlinkEntry_link (i : Fin Config.entryCount) (s : State) :
    (unlinkEntry i s).link = s.link := by
  unfold unlinkEntry
  simp

@[simp] theorem unlinkEntry_fen (i : Fin Config.entryCount) (s : State) :
    (unlinkEntry i s).fen = s.fen := by
  unfold unlinkEntry
  simp

@[simp] theorem unlinkEntry_btx (i : Fin Config.entryCount) (s : State) :
    (unlinkEntry i s).btx = s.btx := by
  unfold unlinkEntry
  simp

@[simp] theorem unlinkEntry_drm (i : Fin Config.entryCount) (s : State) :
    (unlinkEntry i s).drm = s.drm := by
  unfold unlinkEntry
  simp

@[simp] theorem unlinkEntry_rst (i : Fin Config.entryCount) (s : State) :
    (unlinkEntry i s).rst = s.rst := by
  unfold unlinkEntry
  simp

@[simp] theorem unlinkEntry_rep (i : Fin Config.entryCount) (s : State) :
    (unlinkEntry i s).rep = s.rep := by
  unfold unlinkEntry
  simp

@[simp] theorem unlinkEntry_pending (i : Fin Config.entryCount) (s : State) :
    (unlinkEntry i s).pending = s.pending := by
  unfold unlinkEntry
  simp

@[simp] theorem putDrop_link (d : Fin Config.dropCount) (r : DropRec) (s : State) :
    (putDrop d r s).link = s.link := by
  unfold putDrop
  simp

@[simp] theorem putDrop_scm (d : Fin Config.dropCount) (r : DropRec) (s : State) :
    (putDrop d r s).scm = s.scm := by
  unfold putDrop
  simp

@[simp] theorem putDrop_fen (d : Fin Config.dropCount) (r : DropRec) (s : State) :
    (putDrop d r s).fen = s.fen := by
  unfold putDrop
  simp

@[simp] theorem putDrop_btx (d : Fin Config.dropCount) (r : DropRec) (s : State) :
    (putDrop d r s).btx = s.btx := by
  unfold putDrop
  simp

@[simp] theorem putDrop_rst (d : Fin Config.dropCount) (r : DropRec) (s : State) :
    (putDrop d r s).rst = s.rst := by
  unfold putDrop
  simp

@[simp] theorem putDrop_rep (d : Fin Config.dropCount) (r : DropRec) (s : State) :
    (putDrop d r s).rep = s.rep := by
  unfold putDrop
  simp

@[simp] theorem putDrop_pending (d : Fin Config.dropCount) (r : DropRec) (s : State) :
    (putDrop d r s).pending = s.pending := by
  unfold putDrop
  simp

@[simp] theorem examineAfter_link (line : List Level) (s : State) :
    (examineAfter line s).link = s.link := by
  simp only [examineAfter]
  repeat' split
  all_goals simp

@[simp] theorem examineAfter_scm (line : List Level) (s : State) :
    (examineAfter line s).scm = s.scm := by
  simp only [examineAfter]
  repeat' split
  all_goals simp

@[simp] theorem examineAfter_drm (line : List Level) (s : State) :
    (examineAfter line s).drm = s.drm := by
  simp only [examineAfter]
  repeat' split
  all_goals simp

@[simp] theorem examineAfter_rst (line : List Level) (s : State) :
    (examineAfter line s).rst = s.rst := by
  simp only [examineAfter]
  repeat' split
  all_goals simp

@[simp] theorem examineAfter_pending (line : List Level) (s : State) :
    (examineAfter line s).pending = s.pending := by
  simp only [examineAfter]
  repeat' split
  all_goals simp

@[simp] theorem handService_link (d : Fin Config.dropCount) (r : AttemptResult) (s : State) :
    (handService d r s).link = s.link := by
  simp only [handService]
  repeat' split
  all_goals simp

@[simp] theorem handService_scm (d : Fin Config.dropCount) (r : AttemptResult) (s : State) :
    (handService d r s).scm = s.scm := by
  simp only [handService]
  repeat' split
  all_goals simp

@[simp] theorem handService_fen (d : Fin Config.dropCount) (r : AttemptResult) (s : State) :
    (handService d r s).fen = s.fen := by
  simp only [handService]
  repeat' split
  all_goals simp

@[simp] theorem handService_btx (d : Fin Config.dropCount) (r : AttemptResult) (s : State) :
    (handService d r s).btx = s.btx := by
  simp only [handService]
  repeat' split
  all_goals simp

@[simp] theorem handService_rst (d : Fin Config.dropCount) (r : AttemptResult) (s : State) :
    (handService d r s).rst = s.rst := by
  simp only [handService]
  repeat' split
  all_goals simp

@[simp] theorem handService_pending (d : Fin Config.dropCount) (r : AttemptResult) (s : State) :
    (handService d r s).pending = s.pending := by
  simp only [handService]
  repeat' split
  all_goals simp

@[simp] theorem endSettling_scm (line : List Level) (s : State) :
    (endSettling line s).scm = s.scm := by
  simp [endSettling]

@[simp] theorem endSettling_rst (line : List Level) (s : State) :
    (endSettling line s).rst = s.rst := by
  simp [endSettling]

@[simp] theorem endSettling_pending (line : List Level) (s : State) :
    (endSettling line s).pending = s.pending := by
  simp [endSettling]

@[simp] theorem settlingBeacon_link (line : List Level) (s : State) :
    (settlingBeacon line s).link = s.link := by
  unfold settlingBeacon
  simp

@[simp] theorem settlingBeacon_scm (line : List Level) (s : State) :
    (settlingBeacon line s).scm = s.scm := by
  unfold settlingBeacon
  simp

@[simp] theorem settlingBeacon_drm (line : List Level) (s : State) :
    (settlingBeacon line s).drm = s.drm := by
  unfold settlingBeacon
  simp

@[simp] theorem settlingBeacon_rst (line : List Level) (s : State) :
    (settlingBeacon line s).rst = s.rst := by
  unfold settlingBeacon
  simp

@[simp] theorem settlingBeacon_rep (line : List Level) (s : State) :
    (settlingBeacon line s).rep = s.rep := by
  unfold settlingBeacon
  simp

@[simp] theorem settlingBeacon_pending (line : List Level) (s : State) :
    (settlingBeacon line s).pending = s.pending := by
  unfold settlingBeacon
  simp

@[simp] theorem resetEngineNow_scm (tag : Byte) (line : List Level) (s : State) :
    (resetEngineNow tag line s).scm = s.scm := by
  unfold resetEngineNow
  dsimp only
  repeat' split
  all_goals simp

@[simp] theorem resetEngineNow_pending (tag : Byte) (line : List Level) (s : State) :
    (resetEngineNow tag line s).pending = s.pending := by
  unfold resetEngineNow
  dsimp only
  repeat' split
  all_goals simp

/-! The line goes on at another rate: the transactor alone changes, and the configuration with BUS_CONFIG. -/

@[simp] theorem gapEnds_link (rate : BusRate) (s : State) : (gapEnds rate s).link = s.link := rfl

@[simp] theorem gapEnds_scm (rate : BusRate) (s : State) : (gapEnds rate s).scm = s.scm := rfl

@[simp] theorem gapEnds_fen (rate : BusRate) (s : State) : (gapEnds rate s).fen = s.fen := rfl

@[simp] theorem gapEnds_drm (rate : BusRate) (s : State) : (gapEnds rate s).drm = s.drm := rfl

@[simp] theorem gapEnds_rst (rate : BusRate) (s : State) : (gapEnds rate s).rst = s.rst := rfl

@[simp] theorem gapEnds_rep (rate : BusRate) (s : State) : (gapEnds rate s).rep = s.rep := rfl

@[simp] theorem gapEnds_pending (rate : BusRate) (s : State) : (gapEnds rate s).pending = s.pending := rfl

@[simp] theorem gapEnds_btx (rate : BusRate) (s : State) :
    (gapEnds rate s).btx = { s.btx with state := .idle, heard := reTick rate s.fen.config.rate s.btx.heard } := rfl

@[simp] theorem withConfig_link (c : BusConfig) (s : State) : (withConfig c s).link = s.link := rfl

@[simp] theorem withConfig_scm (c : BusConfig) (s : State) : (withConfig c s).scm = s.scm := rfl

@[simp] theorem withConfig_drm (c : BusConfig) (s : State) : (withConfig c s).drm = s.drm := rfl

@[simp] theorem withConfig_rst (c : BusConfig) (s : State) : (withConfig c s).rst = s.rst := rfl

@[simp] theorem withConfig_rep (c : BusConfig) (s : State) : (withConfig c s).rep = s.rep := rfl

@[simp] theorem withConfig_pending (c : BusConfig) (s : State) : (withConfig c s).pending = s.pending := rfl

@[simp] theorem withConfig_fen (c : BusConfig) (s : State) : (withConfig c s).fen = { s.fen with config := c } := rfl

end Sys2Proof.Machine
end

