-- ==== Sys2Proof/Laws/Tables.lean ====
section
/-! SUPPORT. Reading a table after one row or every row of it changed, and saturating counts. -/

namespace Sys2Proof.Machine

@[simp] theorem tget_tput_self {α : Type} {n : Nat} (v : Vector α n) (i : Fin n) (x : α) :
    tget (tput v i x) i = x := by simp [tget, tput]

theorem tget_tput_ne {α : Type} {n : Nat} (v : Vector α n) {i j : Fin n} (x : α) (h : i ≠ j) :
    tget (tput v i x) j = tget v j := by
  have : i.val ≠ j.val := fun e => h (Fin.ext e)
  simp [tget, tput, Vector.getElem_set_ne _ _ this]

theorem tget_tput {α : Type} {n : Nat} (v : Vector α n) (i j : Fin n) (x : α) :
    tget (tput v i x) j = if i = j then x else tget v j := by
  by_cases h : i = j
  · subst h; simp
  · simp [h, tget_tput_ne v x h]

@[simp] theorem tget_tmap {α : Type} {n : Nat} (f : α → α) (v : Vector α n) (i : Fin n) :
    tget (tmap f v) i = f (tget v i) := by simp [tget, tmap]

@[simp] theorem tget_replicate {α : Type} {n : Nat} (x : α) (i : Fin n) :
    tget (Vector.replicate n x) i = x := by simp [tget]

@[simp] theorem tput_tget {α : Type} {n : Nat} (v : Vector α n) (i : Fin n) : tput v i (tget v i) = v := by
  simp [tget, tput]

/-- Two tables are equal when all their rows are. -/
theorem table_ext {α : Type} {n : Nat} {v w : Vector α n} (h : ∀ i : Fin n, tget v i = tget w i) : v = w := by
  apply Vector.ext
  intro i hi
  exact h ⟨i, hi⟩

theorem satAdd_le (limit a b : Nat) : satAdd limit a b ≤ limit := Nat.min_le_right _ _

theorem le_satAdd {limit a b : Nat} (h : a ≤ limit) : a ≤ satAdd limit a b :=
  Nat.le_min.mpr ⟨Nat.le_add_right _ _, h⟩

end Sys2Proof.Machine
end

