-- ==== Sys2Proof/Laws/Health.lean ====
section
/-! SUPPORT. What the search for a probe candidate finds. -/

namespace Sys2Proof.Machine

/-- The step, from 0, at which the search that begins after drop `c` reaches drop `d` (R79). -/
def searchStep (c d : Fin Config.dropCount) : Nat := (d.val + 23 - c.val) % Config.dropCount

theorem mem_searchOrder (c d : Fin Config.dropCount) : d ∈ searchOrder c := by
  revert c d; decide +kernel

theorem searchStep_searchOrder (c : Fin Config.dropCount) (k : Nat) (hk : k < (searchOrder c).length) :
    searchStep c (searchOrder c)[k] = k := by
  have all : ∀ c k : Fin Config.dropCount,
      searchStep c ((searchOrder c)[k.val]'(by simp [searchOrder])) = k.val := by decide +kernel
  exact all c ⟨k, by simpa [searchOrder] using hk⟩

theorem isCandidate_iff (r : DropRec) :
    isCandidate r = true ↔ r.state = .seeking ∨ (r.state = .quarantined ∧ r.due = 0) := by simp [isCandidate]

/-- The candidate found is the first that the search reaches. -/
theorem candidate_eq_some (m : Drm) (d : Fin Config.dropCount) :
    candidate m = some d ↔
      isCandidate (tget m.drops d) = true
        ∧ ∀ e, isCandidate (tget m.drops e) = true → searchStep m.cursor d ≤ searchStep m.cursor e := by
  unfold candidate
  rw [List.find?_eq_some_iff_getElem]
  constructor
  · rintro ⟨found, i, hi, rfl, earlier⟩
    refine ⟨found, fun e he => ?_⟩
    obtain ⟨j, hj, rfl⟩ := List.mem_iff_getElem.mp (mem_searchOrder m.cursor e)
    rw [searchStep_searchOrder, searchStep_searchOrder]
    apply Classical.byContradiction
    intro lt
    have none_at := earlier j (by omega)
    simp [he] at none_at
  · rintro ⟨found, least⟩
    obtain ⟨i, hi, rfl⟩ := List.mem_iff_getElem.mp (mem_searchOrder m.cursor d)
    refine ⟨found, i, hi, rfl, fun j hj => ?_⟩
    cases at_j : isCandidate (tget m.drops (searchOrder m.cursor)[j]) with
    | false => rfl
    | true =>
      have le := least _ at_j
      rw [searchStep_searchOrder, searchStep_searchOrder] at le
      omega

theorem candidate_eq_none (m : Drm) :
    candidate m = none ↔ ∀ d, isCandidate (tget m.drops d) = false := by
  simp [candidate, List.find?_eq_none, mem_searchOrder]

end Sys2Proof.Machine
end

