-- ==== Sys2Proof/Laws/Line.lean ====
section
/-! SUPPORT. Bus time and the line (R25, R50, R68), and what the receiver of an answer hears (R49, R58): one lemma for
each bit, byte, idle, low and end. -/

namespace Sys2Proof.Machine

/-! ### The jam record -/

@[simp] theorem ticksOf_length (n : Nat) (line : List Level) : (ticksOf n line).length = n := by
  simp [ticksOf]

/-- A line that says enough is taken as it stands. -/
theorem ticksOf_all (line : List Level) : ticksOf line.length line = line := by
  simp [ticksOf]

theorem ticksOf_getD (n k : Nat) (line : List Level) (hk : k < n) :
    (ticksOf n line).getD k .high = line.getD k .high := by
  simp only [ticksOf, List.getD_eq_getElem?_getD, List.getElem?_take, if_pos hk]
  by_cases h : k < line.length
  · rw [List.getElem?_append_left h]
  · rw [List.getElem?_append_right (by omega), List.getElem?_eq_none (by omega : line.length ≤ k)]
    by_cases h2 : k - line.length < n
    · simp [h2]
    · simp [h2]

theorem BusRate.grains_pos (r : BusRate) : 0 < r.grains := by cases r <;> decide

theorem BusRate.grains_le (r : BusRate) : r.grains ≤ 8 := by cases r <;> decide

/-- One tick in the jam record, bit by bit: the newest grains are the lowest. -/
theorem recordTick_getLsbD (g : Nat) (r : BitVec 256) (l : Level) (k : Nat) (hk : k < 256) :
    (recordTick g r l).getLsbD k = if k < g then decide (l = .low) else r.getLsbD (k - g) := by
  have ones : (BitVec.ofNat 256 (2 ^ g - 1)).getLsbD k = decide (k < g) := by
    rw [BitVec.getLsbD_ofNat, Nat.testBit_two_pow_sub_one, decide_eq_true hk, Bool.true_and]
  unfold recordTick
  rw [BitVec.getLsbD_or, BitVec.getLsbD_shiftLeft, decide_eq_true hk, Bool.true_and]
  by_cases h : k < g
  · cases l <;> simp [h, ones]
  · cases l <;> simp [h, ones]

/-- The jam record after some ticks: the last of them, then what it held before (R68). -/
theorem record_getLsbD (g : Nat) (hg : 0 < g) (line : List Level) (r : BitVec 256) (k : Nat) (hk : k < 256) :
    (line.foldl (recordTick g) r).getLsbD k =
      if k < line.length * g then decide (line.getD (line.length - 1 - k / g) .high = .low)
      else r.getLsbD (k - line.length * g) := by
  induction line generalizing r with
  | nil => simp
  | cons l rest ih =>
    have split_len : (rest.length + 1) * g = rest.length * g + g := Nat.succ_mul _ _
    rw [List.foldl_cons, ih, List.length_cons, split_len]
    by_cases h1 : k < rest.length * g
    · have h2 : k < rest.length * g + g := by omega
      have h3 : k / g < rest.length := Nat.div_lt_of_lt_mul (by rw [Nat.mul_comm]; exact h1)
      rw [if_pos h1, if_pos h2, show rest.length + 1 - 1 - k / g = (rest.length - 1 - k / g) + 1 by omega,
        List.getD_cons_succ]
    · rw [if_neg h1, recordTick_getLsbD _ _ _ _ (by omega)]
      by_cases h2 : k < rest.length * g + g
      · have h3 : k - rest.length * g < g := by omega
        have h4 : k / g = rest.length := Nat.div_eq_of_lt_le (by omega) (by rw [Nat.succ_mul]; exact h2)
        rw [if_pos h3, if_pos h2, h4, show rest.length + 1 - 1 - rest.length = 0 by omega, List.getD_cons_zero]
      · have h3 : ¬ k - rest.length * g < g := by omega
        rw [if_neg h3, if_neg h2]
        congr 1
        omega

/-- A driving long enough leaves the record idle (R68): 32 µs reach back 8 bit-times at every rate. -/
theorem btxDrive_record (rate : BusRate) (n : Nat) (x : Btx) (hn : 256 ≤ n * rate.grains) :
    (btxDrive rate n x).jamRecord = 0 :=
  BitVec.shiftLeft_eq_zero hn

/-- Jammed: the line was low in one of the grains of the last 8 bit-times (R69). -/
theorem jammed_iff (x : Btx) (rate : BusRate) :
    x.jammed rate = true ↔ ∃ k, k < 32 * rate.grains ∧ x.jamRecord.getLsbD k = true := by
  have width : Config.ticks * Config.jamTime * rate.grains = 32 * rate.grains := rfl
  constructor
  · intro h
    apply Classical.byContradiction
    intro none_low
    have zero : x.jamRecord.setWidth (Config.ticks * Config.jamTime * rate.grains) = 0 := by
      apply BitVec.eq_of_getLsbD_eq
      intro k hk
      rw [BitVec.getLsbD_setWidth]
      cases low : x.jamRecord.getLsbD k with
      | false => simp
      | true => exact absurd ⟨k, by rw [← width]; exact hk, low⟩ none_low
    simp [Btx.jammed, zero] at h
  · rintro ⟨k, hk, low⟩
    apply Classical.byContradiction
    intro h
    have zero : x.jamRecord.setWidth (Config.ticks * Config.jamTime * rate.grains) = 0 := by
      simpa [Btx.jammed] using h
    have at_k := congrArg (fun v => v.getLsbD k) zero
    rw [← width] at hk
    simp [hk, low] at at_k

theorem jammed_eq_false_iff (x : Btx) (rate : BusRate) :
    x.jammed rate = false ↔ ∀ k, k < 32 * rate.grains → x.jamRecord.getLsbD k = false := by
  rw [← Bool.not_eq_true, jammed_iff]
  simp

/-! ### A line in ticks of another rate -/

theorem flatMap_replicate_getElem? {α : Type} (g : Nat) (hg : 0 < g) (levels : List α) (k : Nat) :
    (levels.flatMap (List.replicate g))[k]? = levels[k / g]? := by
  induction levels generalizing k with
  | nil => simp
  | cons l rest ih =>
    rw [List.flatMap_cons]
    by_cases h : k < g
    · rw [List.getElem?_append_left (by simpa using h)]
      simp [h, Nat.div_eq_of_lt h]
    · rw [List.getElem?_append_right (by simpa using h), ih, List.length_replicate]
      have : k / g = (k - g) / g + 1 := by
        rw [← Nat.add_div_right _ hg, Nat.sub_add_cancel (by omega)]
      simp [this]

theorem flatMap_replicate_length {α : Type} (g : Nat) (levels : List α) :
    (levels.flatMap (List.replicate g)).length = levels.length * g := by
  induction levels with
  | nil => simp
  | cons l rest ih =>
    rw [List.flatMap_cons, List.length_append, ih, List.length_replicate, List.length_cons, Nat.succ_mul, Nat.add_comm]

theorem getD_eq_low (levels : List Level) (k : Nat) : levels.getD k .high = .low ↔ levels[k]? = some .low := by
  rw [List.getD_eq_getElem?_getD]
  cases levels[k]? with
  | none => simp
  | some l => simp

/-- A tick of the line in ticks of the new rate is low exactly where a low tick of the old one overlaps it. -/
theorem reTick_getD (old new : BusRate) (line : List Level) (k : Nat) :
    (reTick old new line).getD k .high = .low ↔
      ∃ j, line.getD j .high = .low ∧ j * old.grains < (k + 1) * new.grains
        ∧ k * new.grains < (j + 1) * old.grains := by
  have go := old.grains_pos
  have gn := new.grains_pos
  have low_grain : ∀ m, (line.flatMap (List.replicate old.grains))[m]? = some .low ↔
      (line)[m / old.grains]? = some .low := fun m => by rw [flatMap_replicate_getElem? _ go]
  have len := flatMap_replicate_length old.grains line
  generalize hfine : line.flatMap (List.replicate old.grains) = fine at low_grain len
  have tick : (reTick old new line).getD k .high = .low ↔
      ∃ m, k * new.grains ≤ m ∧ m < (k + 1) * new.grains ∧ fine[m]? = some .low := by
    rw [getD_eq_low]
    have inside : ((fine.drop (k * new.grains)).take new.grains).contains .low = true ↔
        ∃ m, k * new.grains ≤ m ∧ m < (k + 1) * new.grains ∧ fine[m]? = some .low := by
      rw [List.contains_iff_mem, List.mem_iff_getElem?]
      constructor
      · rintro ⟨m, low⟩
        rw [List.getElem?_take] at low
        split at low
        · rw [List.getElem?_drop] at low
          exact ⟨k * new.grains + m, by omega, by rw [Nat.succ_mul]; omega, low⟩
        · cases low
      · rintro ⟨m, lower, upper, low⟩
        rw [Nat.succ_mul] at upper
        refine ⟨m - k * new.grains, ?_⟩
        rw [List.getElem?_take, if_pos (by omega), List.getElem?_drop,
          show k * new.grains + (m - k * new.grains) = m by omega]
        exact low
    rw [← inside]
    simp only [reTick, hfine, List.getElem?_map]
    by_cases within : k < (fine.length + new.grains - 1) / new.grains
    · rw [List.getElem?_range within, Option.map_some]
      generalize ((fine.drop (k * new.grains)).take new.grains).contains .low = low
      cases low <;> simp
    · rw [List.getElem?_eq_none (by simpa using within)]
      have past : fine.length ≤ k * new.grains := by
        have := Nat.lt_mul_of_div_lt (Nat.lt_succ_of_le (Nat.le_of_not_lt within)) gn
        rw [Nat.succ_mul] at this
        omega
      simp [List.drop_eq_nil_of_le past]
  rw [tick]
  constructor
  · rintro ⟨m, lower, upper, low⟩
    refine ⟨m / old.grains, (getD_eq_low _ _).mpr ((low_grain m).mp low), ?_, ?_⟩
    · exact Nat.lt_of_le_of_lt (Nat.div_mul_le_self m old.grains) upper
    · exact Nat.lt_of_le_of_lt lower (Nat.lt_mul_of_div_lt (Nat.lt_succ_self _) go)
  · rintro ⟨j, low, before, behind⟩
    refine ⟨max (j * old.grains) (k * new.grains), Nat.le_max_right _ _, ?_, ?_⟩
    · exact Nat.max_lt.mpr ⟨before, (Nat.mul_lt_mul_right gn).mpr (Nat.lt_succ_self k)⟩
    · rw [low_grain, Nat.div_eq_of_lt_le (Nat.le_max_left _ _)
        (Nat.max_lt.mpr ⟨(Nat.mul_lt_mul_right go).mpr (Nat.lt_succ_self j), behind⟩)]
      exact (getD_eq_low _ _).mp low

theorem reTick_length (old new : BusRate) (line : List Level) :
    (reTick old new line).length = (line.length * old.grains + new.grains - 1) / new.grains := by
  rw [reTick, List.length_map, List.length_range, flatMap_replicate_length]

/-- At one rate nothing changes. -/
theorem reTick_self (rate : BusRate) (line : List Level) : reTick rate rate line = line := by
  have pos := rate.grains_pos
  have len : (reTick rate rate line).length = line.length := by
    rw [reTick_length, Nat.add_sub_assoc pos, Nat.mul_comm, Nat.mul_add_div pos, Nat.div_eq_of_lt (by omega),
      Nat.add_zero]
  have low : ∀ k, (reTick rate rate line).getD k .high = .low ↔ line.getD k .high = .low := by
    intro k
    rw [reTick_getD]
    constructor
    · rintro ⟨j, at_j, before, behind⟩
      have jk := Nat.lt_of_mul_lt_mul_right before
      have kj := Nat.lt_of_mul_lt_mul_right behind
      rwa [show k = j by omega]
    · exact fun at_k => ⟨k, at_k, (Nat.mul_lt_mul_right pos).mpr (Nat.lt_succ_self k),
        (Nat.mul_lt_mul_right pos).mpr (Nat.lt_succ_self k)⟩
  apply List.ext_getElem len
  intro k h1 h2
  have at_k := low k
  rw [getD_eq_low, getD_eq_low, List.getElem?_eq_getElem h1, List.getElem?_eq_getElem h2] at at_k
  cases h3 : (reTick rate rate line)[k] <;> cases h4 : (line)[k] <;> simp_all

/-! ### Bus time on the state -/

/-- The rate on the bus depends on the transactor state and the configuration alone. -/
theorem busRate_congr {s t : State} (state : t.btx.state = s.btx.state) (config : t.fen.config = s.fen.config) :
    t.busRate = s.busRate := by
  simp only [State.busRate, state, config]

/-- While a whole bit-time remains, the guard has not started (R25). -/
theorem guardStarted_eq_false {f : Fen} (left : 0 < remaining f) : guardStarted f = false := by
  unfold remaining at left
  unfold guardStarted
  split
  · rename_i t at_t
    simp only [at_t] at left
    have := (Nat.div_pos_iff.mp left).2
    simp only [decide_eq_false_iff_not, Nat.not_le]
    have ticks : 0 < Config.ticks := by decide
    omega
  · rename_i at_t
    simp [at_t] at left

/-- Once the guard has started nothing remains (R25). -/
theorem remaining_eq_zero {f : Fen} (started : guardStarted f = true) : remaining f = 0 :=
  Nat.eq_zero_of_not_pos fun left => by
    rw [guardStarted_eq_false left] at started
    cases started

theorem busRate_idle {s : State} (idle : s.btx.state = .idle) : s.busRate = s.fen.config.rate := by
  simp only [State.busRate, idle]

/-- What hearing `n` ticks does to the state. -/
theorem hear_eq (n : Nat) (line : List Level) (s : State) :
    hear n line s = (s.setFen { s.fen with timer := s.fen.timer.map (· + n) }).setBtx
      (btxHear s.busRate n (s.btx.heard ++ line) s.btx) := rfl

/-- What hearing all that is given does to the state. -/
theorem hearAll_eq (line : List Level) (s : State) :
    hearAll line s =
      (s.setFen { s.fen with timer := s.fen.timer.map (· + (s.btx.heard ++ line).length) }).setBtx
        { s.btx with
          jamRecord := (s.btx.heard ++ line).foldl (recordTick s.busRate.grains) s.btx.jamRecord, heard := [] } := by
  show hear (s.btx.heard ++ line).length line s = _
  rw [hear_eq, btxHear, ticksOf_all, List.drop_length]

/-- What `n` ticks of the part's own driving do to the state. -/
theorem drive_eq (n : Nat) (s : State) :
    drive n s = (s.setFen { s.fen with timer := s.fen.timer.map (· + n) }).setBtx
      { s.btx with jamRecord := s.btx.jamRecord <<< (n * s.busRate.grains) } := rfl

/-! ### What the receiver hears -/

theorem sampledByte_bits (b : Byte) (f : Bool) :
    sampledByte (characterBits b f) = (b, f) := by
  revert b f; decide +kernel

/-- A tick before the end of the answer goes into the receiver. -/
theorem hearAnswer_tick (limit : Nat) (l : Level) (rest : List Level) (h : Hearing)
    (h1 : h.idleEnded = false) (h2 : h.now < limit) :
    hearAnswer limit (l :: rest) h = hearAnswer limit rest (hearTick l h) := by
  simp [hearAnswer, h1, Nat.not_le.mpr h2]

theorem hearTick_byte (l : Level) (now age : Nat) (s : List Level) (bytes : List (Byte × Bool)) (e : Nat) (ha : age + 1 < 40) :
    hearTick l { now := now, listening := .byte age s, bytes := bytes, lastEnd := e } =
      { now := now + 1, listening := .byte (age + 1) (if age % 4 = 2 then s ++ [l] else s), bytes := bytes, lastEnd := e } := by
  have h : age < 39 := by omega
  simp [hearTick, hearByte, h, Config.ticks]

/-- One bit of a byte. -/
theorem hearAnswer_bit (limit k : Nat) (l : Level) (rest : List Level) (now : Nat) (s : List Level)
    (bytes : List (Byte × Bool)) (e : Nat) (hk : k < 9) (hn : now + 4 ≤ limit) :
    hearAnswer limit (List.replicate Config.ticks l ++ rest)
        { now := now, listening := .byte (4 * k) s, bytes := bytes, lastEnd := e } =
      hearAnswer limit rest
        { now := now + 4, listening := .byte (4 * (k + 1)) (s ++ [l]), bytes := bytes, lastEnd := e } := by
  have m0 : ¬ (4 * k) % 4 = 2 := by omega
  have m1 : ¬ (4 * k + 1) % 4 = 2 := by omega
  have m2 : (4 * k + 1 + 1) % 4 = 2 := by omega
  have m3 : ¬ (4 * k + 1 + 1 + 1) % 4 = 2 := by omega
  show hearAnswer limit (l :: l :: l :: l :: rest) _ = _
  rw [hearAnswer_tick _ _ _ _ rfl (by dsimp only; omega), hearTick_byte _ _ _ _ _ _ (by omega), if_neg m0,
    hearAnswer_tick _ _ _ _ rfl (by dsimp only; omega), hearTick_byte _ _ _ _ _ _ (by omega), if_neg m1,
    hearAnswer_tick _ _ _ _ rfl (by dsimp only; omega), hearTick_byte _ _ _ _ _ _ (by omega), if_pos m2,
    hearAnswer_tick _ _ _ _ rfl (by dsimp only; omega), hearTick_byte _ _ _ _ _ _ (by omega), if_neg m3]
  rfl

/-- The stop bit of a byte. -/
theorem hearAnswer_stop (limit : Nat) (l : Level) (rest : List Level) (now : Nat) (s : List Level)
    (bytes : List (Byte × Bool)) (e : Nat) (hn : now + 4 ≤ limit) :
    hearAnswer limit (List.replicate Config.ticks l ++ rest)
        { now := now, listening := .byte 36 s, bytes := bytes, lastEnd := e } =
      hearAnswer limit rest
        { now := now + 4, listening := if l = .high then .idle 0 0 else .held,
          bytes := bytes ++ [sampledByte (s ++ [l])], lastEnd := now + 4 } := by
  show hearAnswer limit (l :: l :: l :: l :: rest) _ = _
  rw [hearAnswer_tick _ _ _ _ rfl (by dsimp only; omega), hearTick_byte _ _ _ _ _ _ (by omega), if_neg (by omega),
    hearAnswer_tick _ _ _ _ rfl (by dsimp only; omega), hearTick_byte _ _ _ _ _ _ (by omega), if_neg (by omega),
    hearAnswer_tick _ _ _ _ rfl (by dsimp only; omega), hearTick_byte _ _ _ _ _ _ (by omega), if_pos (by omega),
    hearAnswer_tick _ _ _ _ rfl (by dsimp only; omega)]
  rfl

theorem characterLine_eq (b : Byte) (f : Bool) (rest : List Level) : characterLine b f ++ rest =
    List.replicate Config.ticks .low ++ (List.replicate Config.ticks (levelOf (b.getLsbD 0)) ++
    (List.replicate Config.ticks (levelOf (b.getLsbD 1)) ++ (List.replicate Config.ticks (levelOf (b.getLsbD 2)) ++
    (List.replicate Config.ticks (levelOf (b.getLsbD 3)) ++ (List.replicate Config.ticks (levelOf (b.getLsbD 4)) ++
    (List.replicate Config.ticks (levelOf (b.getLsbD 5)) ++ (List.replicate Config.ticks (levelOf (b.getLsbD 6)) ++
    (List.replicate Config.ticks (levelOf (b.getLsbD 7)) ++ (List.replicate Config.ticks (levelOf (!f)) ++ rest))))))))) := by
  simp only [characterLine, characterBits, List.range, List.range.loop, List.map_cons, List.map_nil, List.cons_append,
    List.nil_append, List.flatMap_cons, List.flatMap_nil, List.append_assoc]

theorem levelOf_high (x : Bool) : (levelOf x = .high) = (x = true) := by cases x <;> simp [levelOf]

/-- A byte of an answer, heard from the beginning of its start bit on. -/
theorem hearAnswer_byte (limit : Nat) (b : Byte) (f : Bool) (rest : List Level) (now : Nat)
    (bytes : List (Byte × Bool)) (e : Nat) (hn : now + 40 ≤ limit) :
    hearAnswer limit (characterLine b f ++ rest) { now := now, listening := .byte 0 [], bytes := bytes, lastEnd := e } =
      hearAnswer limit rest
        { now := now + 40, listening := if f then .held else .idle 0 0, bytes := bytes ++ [(b, f)],
          lastEnd := now + 40 } := by
  have hs := sampledByte_bits b f
  simp only [characterBits, List.range, List.range.loop, List.map_cons, List.map_nil, List.cons_append,
    List.nil_append] at hs
  rw [characterLine_eq]
  rw [show (Listening.byte 0 []) = .byte (4 * 0) [] from rfl, hearAnswer_bit limit 0 _ _ _ _ _ _ (by omega) (by omega),
    hearAnswer_bit limit 1 _ _ _ _ _ _ (by omega) (by omega), hearAnswer_bit limit 2 _ _ _ _ _ _ (by omega) (by omega),
    hearAnswer_bit limit 3 _ _ _ _ _ _ (by omega) (by omega), hearAnswer_bit limit 4 _ _ _ _ _ _ (by omega) (by omega),
    hearAnswer_bit limit 5 _ _ _ _ _ _ (by omega) (by omega), hearAnswer_bit limit 6 _ _ _ _ _ _ (by omega) (by omega),
    hearAnswer_bit limit 7 _ _ _ _ _ _ (by omega) (by omega), hearAnswer_bit limit 8 _ _ _ _ _ _ (by omega) (by omega),
    hearAnswer_stop limit _ _ _ _ _ _ (by omega)]
  simp only [List.nil_append, List.cons_append, hs, levelOf_high]
  cases f <;> rfl

theorem hearTick_low (now t k : Nat) (bytes : List (Byte × Bool)) (e : Nat) (hk : k < 2) :
    hearTick .low { now := now, listening := .idle t k, bytes := bytes, lastEnd := e } =
      { now := now + 1, listening := .idle t (k + 1), bytes := bytes, lastEnd := e } := by
  have : ¬ k = 2 := by omega
  simp [hearTick, hearIdle, this, Config.ticks]

/-- An idle of less than 2 bit-times does not end the answer. -/
theorem idleEnded_idle (now t k : Nat) (bytes : List (Byte × Bool)) (e : Nat) (ht : t < 8) :
    Hearing.idleEnded { now := now, listening := .idle t k, bytes := bytes, lastEnd := e } = false := by
  simp [Hearing.idleEnded, Config.ticks, Config.idleEnd]
  omega

/-- A start bit is recognised with its third low tick. -/
theorem hearAnswer_startBit (limit t : Nat) (rest : List Level) (now : Nat) (bytes : List (Byte × Bool)) (e : Nat)
    (ht : t < 8) (hn : now + 3 ≤ limit) :
    hearAnswer limit (.low :: .low :: .low :: rest)
        { now := now, listening := .idle t 0, bytes := bytes, lastEnd := e } =
      hearAnswer limit rest { now := now + 3, listening := .byte 3 [.low], bytes := bytes, lastEnd := e } := by
  rw [hearAnswer_tick _ _ _ _ (idleEnded_idle _ _ _ _ _ ht) (by show now < limit; omega),
    hearTick_low _ _ _ _ _ (by omega),
    hearAnswer_tick _ _ _ _ (idleEnded_idle _ _ _ _ _ ht) (by show now + 1 < limit; omega),
    hearTick_low _ _ _ _ _ (by omega),
    hearAnswer_tick _ _ _ _ (idleEnded_idle _ _ _ _ _ ht) (by show now + 1 + 1 < limit; omega)]
  rfl

/-- The beginning of a byte whose start bit is known. -/
theorem hearAnswer_byteBegins (limit : Nat) (rest : List Level) (now : Nat) (bytes : List (Byte × Bool)) (e : Nat)
    (hn : now + 3 ≤ limit) :
    hearAnswer limit (.low :: .low :: .low :: rest)
        { now := now, listening := .byte 0 [], bytes := bytes, lastEnd := e } =
      hearAnswer limit rest { now := now + 3, listening := .byte 3 [.low], bytes := bytes, lastEnd := e } := by
  rw [hearAnswer_tick _ _ _ _ rfl (by show now < limit; omega), hearTick_byte _ _ _ _ _ _ (by omega),
    hearAnswer_tick _ _ _ _ rfl (by show now + 1 < limit; omega), hearTick_byte _ _ _ _ _ _ (by omega),
    hearAnswer_tick _ _ _ _ rfl (by show now + 1 + 1 < limit; omega), hearTick_byte _ _ _ _ _ _ (by omega)]
  rfl

/-- A further byte after an idle of less than 2 bit-times. -/
theorem hearAnswer_nextByte (limit t : Nat) (b : Byte) (f : Bool) (rest : List Level) (now : Nat)
    (bytes : List (Byte × Bool)) (e : Nat) (ht : t < 8) (hn : now + 40 ≤ limit) :
    hearAnswer limit (characterLine b f ++ rest)
        { now := now, listening := .idle t 0, bytes := bytes, lastEnd := e } =
      hearAnswer limit rest
        { now := now + 40, listening := if f then .held else .idle 0 0, bytes := bytes ++ [(b, f)],
          lastEnd := now + 40 } := by
  rw [← hearAnswer_byte limit b f rest now bytes e hn, characterLine_eq]
  exact (hearAnswer_startBit limit t _ now bytes e ht (by omega)).trans
    (hearAnswer_byteBegins limit _ now bytes e (by omega)).symm

/-- Idle ticks add up until they are 2 bit-times. -/
theorem hearAnswer_idle (limit n t : Nat) (rest : List Level) (now : Nat) (bytes : List (Byte × Bool)) (e : Nat)
    (ht : t + n ≤ 8) (hn : now + n ≤ limit) :
    hearAnswer limit (List.replicate n .high ++ rest)
        { now := now, listening := .idle t 0, bytes := bytes, lastEnd := e } =
      hearAnswer limit rest { now := now + n, listening := .idle (t + n) 0, bytes := bytes, lastEnd := e } := by
  induction n generalizing t now with
  | zero => rfl
  | succ n ih =>
    rw [List.replicate_succ, List.cons_append,
      hearAnswer_tick _ _ _ _ (idleEnded_idle _ _ _ _ _ (by omega)) (by show now < limit; omega)]
    have := ih (t + 1) (now + 1) (by omega) (by omega)
    rw [Nat.add_assoc, Nat.add_assoc, Nat.add_comm 1 n] at this
    exact this

/-- A low that goes on after a stop bit sampled low is waited out. -/
theorem hearAnswer_held (limit n : Nat) (rest : List Level) (now : Nat) (bytes : List (Byte × Bool)) (e : Nat)
    (hn : now + n ≤ limit) :
    hearAnswer limit (List.replicate n .low ++ rest)
        { now := now, listening := .held, bytes := bytes, lastEnd := e } =
      hearAnswer limit rest { now := now + n, listening := .held, bytes := bytes, lastEnd := e } := by
  induction n generalizing now with
  | zero => rfl
  | succ n ih =>
    rw [List.replicate_succ, List.cons_append, hearAnswer_tick _ _ _ _ rfl (by show now < limit; omega)]
    have := ih (now + 1) (by omega)
    rw [Nat.add_assoc, Nat.add_comm 1 n] at this
    exact this

/-- The first idle tick after such a low. -/
theorem hearAnswer_released (limit : Nat) (rest : List Level) (now : Nat) (bytes : List (Byte × Bool)) (e : Nat)
    (hn : now < limit) :
    hearAnswer limit (.high :: rest) { now := now, listening := .held, bytes := bytes, lastEnd := e } =
      hearAnswer limit rest { now := now + 1, listening := .idle 1 0, bytes := bytes, lastEnd := e } := by
  rw [hearAnswer_tick _ _ _ _ rfl hn]
  rfl

/-- A low of one or two ticks between bytes is disregarded. -/
theorem hearAnswer_glitch (limit n t : Nat) (rest : List Level) (now : Nat) (bytes : List (Byte × Bool)) (e : Nat)
    (h2 : n ≤ 2) (ht : t < 8) (hn : now + n + 1 ≤ limit) :
    hearAnswer limit (List.replicate n .low ++ .high :: rest)
        { now := now, listening := .idle t 0, bytes := bytes, lastEnd := e } =
      hearAnswer limit rest
        { now := now + n + 1, listening := .idle (t + n + 1) 0, bytes := bytes, lastEnd := e } := by
  have tick := fun (l : Level) (k : Nat) (tl : List Level) (hk : k ≤ n) =>
    hearAnswer_tick limit l tl { now := now + k, listening := .idle t k, bytes := bytes, lastEnd := e }
      (idleEnded_idle _ _ _ _ _ ht) (by show now + k < limit; omega)
  match n with
  | 0 => exact tick .high 0 rest (by omega)
  | 1 => exact (tick .low 0 _ (by omega)).trans (tick .high 1 rest (by omega))
  | 2 => exact ((tick .low 0 _ (by omega)).trans (tick .low 1 _ (by omega))).trans (tick .high 2 rest (by omega))

/-- The idle end (R58). -/
theorem hearAnswer_idleEnd (limit t k : Nat) (rest : List Level) (now : Nat) (bytes : List (Byte × Bool)) (e : Nat)
    (ht : 8 ≤ t) :
    hearAnswer limit rest { now := now, listening := .idle t k, bytes := bytes, lastEnd := e } =
      { bytes := bytes, overran := false, endAt := e } := by
  cases rest with
  | nil => rfl
  | cons l rest =>
    have : Hearing.idleEnded { now := now, listening := .idle t k, bytes := bytes, lastEnd := e } = true := by
      simp [Hearing.idleEnded, Config.ticks, Config.idleEnd]
      omega
    simp [hearAnswer, this]

/-- The answer limit (R58). -/
theorem hearAnswer_limit (limit : Nat) (l : Level) (rest : List Level) (h : Hearing) (h1 : h.idleEnded = false)
    (h2 : limit ≤ h.now) :
    hearAnswer limit (l :: rest) h =
      if l = .low ∨ h.inByte then { bytes := h.bytes, overran := true, endAt := limit }
      else { bytes := h.bytes, overran := false, endAt := h.lastEnd } := by
  simp [hearAnswer, h1, h2]

/-- A byte that has begun and cannot end by the limit overruns (R58). -/
theorem hearAnswer_overrun (limit : Nat) (line : List Level) (now age : Nat) (s : List Level)
    (bytes : List (Byte × Bool)) (e : Nat) (h1 : limit < now + (40 - age)) (h2 : age < 40) (h3 : limit < now + line.length)
    (h4 : now ≤ limit) :
    hearAnswer limit line { now := now, listening := .byte age s, bytes := bytes, lastEnd := e } =
      { bytes := bytes, overran := true, endAt := limit } := by
  induction line generalizing now age s with
  | nil => simp at h3; omega
  | cons l rest ih =>
    by_cases h : limit ≤ now
    · rw [hearAnswer_limit _ _ _ _ rfl h]
      exact if_pos (.inr rfl)
    · rw [hearAnswer_tick _ _ _ _ rfl (by show now < limit; omega), hearTick_byte _ _ _ _ _ _ (by omega)]
      rw [List.length_cons] at h3
      exact ih _ _ _ (by omega) (by omega) (by omega) (by omega)

theorem hearTick_now (l : Level) (h : Hearing) : (hearTick l h).now = h.now + 1 := by
  unfold hearTick hearByte hearIdle
  split
  · dsimp only
    split <;> rfl
  · rfl
  · rfl

/-- Only the ticks up to the one that begins at the limit matter. -/
theorem hearAnswer_append (limit : Nat) (line more : List Level) (h : Hearing) (h1 : h.now ≤ limit)
    (hl : limit < h.now + line.length) : hearAnswer limit (line ++ more) h = hearAnswer limit line h := by
  induction line generalizing h with
  | nil => simp at hl; omega
  | cons l rest ih =>
    simp only [List.cons_append, hearAnswer]
    split
    · rfl
    · split
      · rfl
      · rw [List.length_cons] at hl
        have := hearTick_now l h
        exact ih _ (by omega) (by omega)

/-- An answer, from the line it begins on and the idle that follows it. -/
theorem takeAnswer_eq (i : Nat) (line : List Level) :
    takeAnswer i line =
      hearAnswer (4 * answerLimit i) (line ++ List.replicate (4 * answerLimit i + 1) .high) .start := by
  have h : ∀ n : Nat, n = 4 * answerLimit i →
      hearAnswer n (ticksOf (n + 1) line) .start = hearAnswer n (line ++ List.replicate (n + 1) .high) .start := by
    intro n _
    unfold ticksOf
    rw [← hearAnswer_append n ((line ++ List.replicate (n + 1) Level.high).take (n + 1))
      ((line ++ List.replicate (n + 1) Level.high).drop (n + 1)) .start (Nat.zero_le _) (by
        simp [Hearing.start]), List.take_append_drop]
  exact h _ rfl

/-- The ends of an answer lie within its limit. -/
theorem hearAnswer_endAt (limit : Nat) (line : List Level) (h : Hearing) (h1 : h.lastEnd ≤ limit)
    (h2 : h.now ≤ limit) : (hearAnswer limit line h).endAt ≤ limit := by
  induction line generalizing h with
  | nil =>
    simp only [hearAnswer]
    split
    · exact Nat.le_refl _
    · exact h1
  | cons l rest ih =>
    simp only [hearAnswer]
    split
    · exact h1
    · split
      · split
        · exact Nat.le_refl _
        · exact h1
      · rename_i hlt
        apply ih
        · unfold hearTick hearByte hearIdle
          split
          · dsimp only
            split
            · exact h1
            · dsimp only
              omega
          · exact h1
          · exact h1
        · rw [hearTick_now]
          omega

/-- The end of an answer lies within its limit (R58). -/
theorem takeAnswer_endAt (i : Nat) (line : List Level) : (takeAnswer i line).endAt ≤ 4 * answerLimit i :=
  hearAnswer_endAt _ _ _ (Nat.zero_le _) (Nat.zero_le _)

/-! ### Start bits -/

/-- A start bit begins at tick `n` of a line that was at `prev` before (R49). -/
def StartsAt (prev : Level) (line : List Level) (n : Nat) : Prop :=
  (prev :: line).getD n .high = .high
    ∧ line.getD n .high = .low ∧ line.getD (n + 1) .high = .low ∧ line.getD (n + 2) .high = .low

theorem startsBit_cons (l : Level) (rest : List Level) :
    startsBit (l :: rest) = true ↔ l = .low ∧ rest.getD 0 .high = .low ∧ rest.getD 1 .high = .low := by
  match rest with
  | [] => simp [startsBit, ticksOf]
  | [a] => simp [startsBit, ticksOf]
  | a :: b :: more => simp [startsBit, ticksOf]

/-- The receiver finds the first start bit (R49, R58). -/
theorem startBit_eq_some (prev : Level) (line : List Level) (n : Nat) :
    startBit prev line = some n ↔ StartsAt prev line n ∧ ∀ m, m < n → ¬ StartsAt prev line m := by
  induction line generalizing prev n with
  | nil => simp [startBit, StartsAt]
  | cons l rest ih =>
    have h0 : StartsAt prev (l :: rest) 0 ↔ prev = .high ∧ startsBit (l :: rest) = true := by
      rw [startsBit_cons]
      rfl
    have hs : ∀ m, StartsAt prev (l :: rest) (m + 1) ↔ StartsAt l rest m := fun _ => Iff.rfl
    by_cases h : prev = .high ∧ startsBit (l :: rest) = true
    · simp only [startBit, if_pos h, Option.some.injEq]
      constructor
      · rintro rfl
        exact ⟨h0.mpr h, fun m hm => absurd hm (Nat.not_lt_zero m)⟩
      · rintro ⟨-, h2⟩
        cases n with
        | zero => rfl
        | succ n => exact absurd (h0.mpr h) (h2 0 (Nat.succ_pos n))
    · simp only [startBit, if_neg h]
      cases n with
      | zero => simp [h0, h]
      | succ n =>
        simp only [Option.map_eq_some_iff, Nat.add_right_cancel_iff, exists_eq_right, ih, hs]
        constructor
        · rintro ⟨h1, h2⟩
          refine ⟨h1, fun m hm => ?_⟩
          cases m with
          | zero => exact fun h3 => h (h0.mp h3)
          | succ m => exact fun h3 => h2 m (by omega) ((hs m).mp h3)
        · rintro ⟨h1, h2⟩
          exact ⟨h1, fun m hm h3 => h2 (m + 1) (by omega) ((hs m).mpr h3)⟩

/-- No start bit in a line (R58). -/
theorem startBit_eq_none (prev : Level) (line : List Level) :
    startBit prev line = none ↔ ∀ n, ¬ StartsAt prev line n := by
  induction line generalizing prev with
  | nil => simp [startBit, StartsAt]
  | cons l rest ih =>
    have h0 : StartsAt prev (l :: rest) 0 ↔ prev = .high ∧ startsBit (l :: rest) = true := by
      rw [startsBit_cons]
      rfl
    by_cases h : prev = .high ∧ startsBit (l :: rest) = true
    · simp only [startBit, if_pos h, reduceCtorEq, false_iff]
      exact fun h2 => h2 0 (h0.mpr h)
    · simp only [startBit, if_neg h, Option.map_eq_none_iff, ih]
      constructor
      · intro h2 n
        cases n with
        | zero => exact fun h3 => h (h0.mp h3)
        | succ n => exact h2 n
      · exact fun h2 n => h2 (n + 1)

/-- The answer's start (R58). -/
theorem answerStart_eq_some (line : List Level) (n : Nat) :
    answerStart line = some n ↔ n ≤ 96 ∧ StartsAt .high line n ∧ ∀ m, m < n → ¬ StartsAt .high line m := by
  rw [← startBit_eq_some]
  unfold answerStart
  cases startBit .high line with
  | none => simp
  | some k =>
    by_cases h : k ≤ 96
    · simp [Config.ticks, Config.answerDeadline, h]
      exact fun e => e ▸ h
    · simp [Config.ticks, Config.answerDeadline, h]
      exact fun h1 e => h (e ▸ h1)

/-- No answer by the deadline (R58). -/
theorem answerStart_eq_none (line : List Level) :
    answerStart line = none ↔ ∀ n, n ≤ 96 → ¬ StartsAt .high line n := by
  constructor
  · intro h n hn hs
    obtain ⟨k, hk⟩ : ∃ k, startBit .high line = some k := by
      cases hb : startBit .high line with
      | none => exact absurd hs ((startBit_eq_none _ _).mp hb n)
      | some k => exact ⟨k, rfl⟩
    have h2 := (startBit_eq_some _ _ _).mp hk
    have hkn : k ≤ n := Nat.le_of_not_lt fun hlt => h2.2 n hlt hs
    rw [(answerStart_eq_some line k).mpr ⟨by omega, h2⟩] at h
    exact absurd h (by simp)
  · intro h
    cases ha : answerStart line with
    | none => rfl
    | some k =>
      have := (answerStart_eq_some line k).mp ha
      exact absurd this.2.1 (h k this.1)

/-! ### The wake pulse -/

/-- The wake monitor wakes at the first tick at which its measure is 16 bit-times (R145). -/
theorem pulseAt_eq_some (line : List Level) (m k : Nat) :
    pulseAt m line = some k ↔
      (1 ≤ k ∧ k ≤ line.length ∧ 64 ≤ (line.take k).foldl measureTick m)
        ∧ ∀ j, 1 ≤ j → j < k → (line.take j).foldl measureTick m < 64 := by
  induction line generalizing m k with
  | nil => simp [pulseAt]; omega
  | cons l rest ih =>
    by_cases h : 64 ≤ measureTick m l
    · have h' : Config.wakeLow ≤ measureTick m l / Config.ticks := by simp [Config.wakeLow, Config.ticks]; omega
      simp only [pulseAt, if_pos h', Option.some.injEq]
      constructor
      · rintro rfl
        exact ⟨⟨by omega, by simp, by simpa using h⟩, fun j h1 h2 => by omega⟩
      · rintro ⟨⟨h1, -⟩, h2⟩
        apply Classical.byContradiction
        intro hk
        have := h2 1 (by omega) (by omega)
        simp at this
        omega
    · have h' : ¬ Config.wakeLow ≤ measureTick m l / Config.ticks := by simp [Config.wakeLow, Config.ticks]; omega
      simp only [pulseAt, if_neg h', Option.map_eq_some_iff]
      constructor
      · rintro ⟨n, hn, rfl⟩
        obtain ⟨⟨h1, h2, h3⟩, h4⟩ := (ih _ _).mp hn
        refine ⟨⟨by omega, by simp; omega, by simpa using h3⟩, fun j hj1 hj2 => ?_⟩
        cases j with
        | zero => omega
        | succ j =>
          cases j with
          | zero => simpa using h
          | succ j => simpa using h4 (j + 1) (by omega) (by omega)
      · rintro ⟨⟨h1, h2, h3⟩, h4⟩
        cases k with
        | zero => omega
        | succ k =>
          refine ⟨k, (ih _ _).mpr ⟨⟨?_, ?_, ?_⟩, fun j hj1 hj2 => ?_⟩, rfl⟩
          · cases k with
            | zero => simp at h3; omega
            | succ k => omega
          · simp at h2; exact h2
          · simpa using h3
          · have := h4 (j + 1) (by omega) (by omega)
            simpa using this

/-- No wake pulse in a line (R145). -/
theorem pulseAt_eq_none (line : List Level) (m : Nat) :
    pulseAt m line = none ↔ ∀ k, 1 ≤ k → k ≤ line.length → (line.take k).foldl measureTick m < 64 := by
  induction line generalizing m with
  | nil => simp [pulseAt]; omega
  | cons l rest ih =>
    by_cases h : 64 ≤ measureTick m l
    · have h' : Config.wakeLow ≤ measureTick m l / Config.ticks := by simp [Config.wakeLow, Config.ticks]; omega
      simp only [pulseAt, if_pos h', reduceCtorEq, false_iff]
      intro h2
      have := h2 1 (by omega) (by simp)
      simp at this
      omega
    · have h' : ¬ Config.wakeLow ≤ measureTick m l / Config.ticks := by simp [Config.wakeLow, Config.ticks]; omega
      simp only [pulseAt, if_neg h', Option.map_eq_none_iff, ih]
      constructor
      · intro h2 k hk1 hk2
        cases k with
        | zero => omega
        | succ k =>
          cases k with
          | zero => simpa using h
          | succ k => simpa using h2 (k + 1) (by omega) (by simp at hk2; omega)
      · intro h2 k hk1 hk2
        simpa using h2 (k + 1) (by omega) (by simp; omega)

/-- The measure of a line that is low throughout, and of one whose last idle tick is `j` (R145). -/
theorem measure_eq (line : List Level) (m : Nat) :
    ((∀ x, x < line.length → line.getD x .high = .low) → line.foldl measureTick m = m + line.length)
    ∧ ∀ j, j < line.length → line.getD j .high = .high →
        (∀ x, j < x → x < line.length → line.getD x .high = .low) →
        line.foldl measureTick m = line.length - 1 - j := by
  induction line generalizing m with
  | nil => simp
  | cons l rest ih =>
    constructor
    · intro h
      have h0 : l = .low := h 0 (by simp)
      rw [List.foldl_cons, (ih _).1 fun x hx => by simpa using h (x + 1) (by simpa using hx)]
      simp [measureTick, h0]
      omega
    · intro j hj h1 h2
      cases j with
      | zero =>
        have h0 : l = .high := h1
        rw [List.foldl_cons, (ih _).1 fun x hx => by simpa using h2 (x + 1) (by omega) (by simpa using hx)]
        simp [measureTick, h0]
      | succ j =>
        have hj' : j < rest.length := by simpa using hj
        rw [List.foldl_cons, (ih _).2 j hj' (by simpa using h1) fun x hx1 hx2 => by
          simpa using h2 (x + 1) (by omega) (by simpa using hx2)]
        simp
        omega

end Sys2Proof.Machine
end

