-- ==== Sys2Proof/Laws/Places.lean ====
section
/-! SUPPORT. Replies and places: what answering and deferring change of LNK (R157, R161). -/

namespace Sys2Proof.Machine

/-- Changing phases keeps the tags. -/
@[simp] theorem setPhase_tags (sel : Place → Bool) (ph : Phase) (ps : List Place) :
    (setPhase sel ph ps).map Place.tag = ps.map Place.tag := by
  simp only [setPhase, List.map_map]
  apply List.map_congr_left
  intro p _
  simp only [Function.comp]
  split <;> rfl

@[simp] theorem setPhase_length (sel : Place → Bool) (ph : Phase) (ps : List Place) :
    (setPhase sel ph ps).length = ps.length := by simp [setPhase]

/-- A reply keeps everything of LNK but the places' phases and the ready replies. -/
theorem linkReply_frame (tag : Byte) (st : Status) (data : List Byte) (l : Link) :
    linkReply tag st data l =
      { l with places := (linkReply tag st data l).places, outbox := (linkReply tag st data l).outbox } := by
  unfold linkReply
  split <;> rfl

@[simp] theorem linkReply_session (tag : Byte) (st : Status) (data : List Byte) (l : Link) :
    (linkReply tag st data l).session = l.session := by rw [linkReply_frame]
@[simp] theorem linkReply_send (tag : Byte) (st : Status) (data : List Byte) (l : Link) :
    (linkReply tag st data l).send = l.send := by rw [linkReply_frame]
@[simp] theorem linkReply_ltx (tag : Byte) (st : Status) (data : List Byte) (l : Link) :
    (linkReply tag st data l).ltx = l.ltx := by rw [linkReply_frame]
@[simp] theorem linkReply_memory (tag : Byte) (st : Status) (data : List Byte) (l : Link) :
    (linkReply tag st data l).memory = l.memory := by rw [linkReply_frame]
@[simp] theorem linkReply_receiver (tag : Byte) (st : Status) (data : List Byte) (l : Link) :
    (linkReply tag st data l).receiver = l.receiver := by rw [linkReply_frame]
@[simp] theorem linkReply_badFrames (tag : Byte) (st : Status) (data : List Byte) (l : Link) :
    (linkReply tag st data l).badFrames = l.badFrames := by rw [linkReply_frame]

/-- A reply keeps the tags of the outstanding requests. -/
theorem linkReply_tags (tag : Byte) (st : Status) (data : List Byte) (l : Link) :
    (linkReply tag st data l).places.map Place.tag = l.places.map Place.tag := by
  unfold linkReply
  split <;> simp

@[simp] theorem linkAnswer_session (sel : Request → Bool) (st : Status) (data : List Byte) (l : Link) :
    (linkAnswer sel st data l).session = l.session := rfl
@[simp] theorem linkAnswer_send (sel : Request → Bool) (st : Status) (data : List Byte) (l : Link) :
    (linkAnswer sel st data l).send = l.send := rfl
@[simp] theorem linkAnswer_ltx (sel : Request → Bool) (st : Status) (data : List Byte) (l : Link) :
    (linkAnswer sel st data l).ltx = l.ltx := rfl
@[simp] theorem linkAnswer_memory (sel : Request → Bool) (st : Status) (data : List Byte) (l : Link) :
    (linkAnswer sel st data l).memory = l.memory := rfl
@[simp] theorem linkAnswer_receiver (sel : Request → Bool) (st : Status) (data : List Byte) (l : Link) :
    (linkAnswer sel st data l).receiver = l.receiver := rfl
@[simp] theorem linkAnswer_badFrames (sel : Request → Bool) (st : Status) (data : List Byte) (l : Link) :
    (linkAnswer sel st data l).badFrames = l.badFrames := rfl

theorem linkAnswer_tags (sel : Request → Bool) (st : Status) (data : List Byte) (l : Link) :
    (linkAnswer sel st data l).places.map Place.tag = l.places.map Place.tag := by
  simp [linkAnswer]

/-- A frame that has passed the check leaves everything of LNK but the places, the ready replies and the silence
timer. -/
theorem takeFrame_frame (f : Frame) (l : Link) :
    takeFrame f l =
      { l with
        places := (takeFrame f l).places, outbox := (takeFrame f l).outbox,
        session := { l.session with silence := (takeFrame f l).session.silence } } := by
  unfold takeFrame pushShort acceptFrame restartSilence
  dsimp only
  repeat' split
  all_goals rfl

end Sys2Proof.Machine
end

