-- ==== Sys2Proof/Laws/Reports.lean ====
section
/-! SUPPORT. What report admission does to REP: a report joins the tail of the queue, or a latch changes (7.2 to
7.6). -/

namespace Sys2Proof.Machine

@[simp] theorem enqueue_queue (r : Report) (p : Rep) :
    (enqueue r p).queue = p.queue ++ [{ seq := p.nextSeq, report := r }] := rfl
@[simp] theorem enqueue_nextSeq (r : Report) (p : Rep) : (enqueue r p).nextSeq = p.nextSeq + 1 := rfl
@[simp] theorem enqueue_maskDrop (r : Report) (p : Rep) : (enqueue r p).maskDrop = p.maskDrop := rfl
@[simp] theorem enqueue_maskService (r : Report) (p : Rep) : (enqueue r p).maskService = p.maskService := rfl
@[simp] theorem enqueue_maskFrame (r : Report) (p : Rep) : (enqueue r p).maskFrame = p.maskFrame := rfl
@[simp] theorem enqueue_dropLatches (r : Report) (p : Rep) : (enqueue r p).dropLatches = p.dropLatches := rfl
@[simp] theorem enqueue_serviceLatches (r : Report) (p : Rep) :
    (enqueue r p).serviceLatches = p.serviceLatches := rfl
@[simp] theorem enqueue_frameLatch (r : Report) (p : Rep) : (enqueue r p).frameLatch = p.frameLatch := rfl
@[simp] theorem enqueue_engineLatch (r : Report) (p : Rep) : (enqueue r p).engineLatch = p.engineLatch := rfl

/-- What an offered report can do to the queue: nothing, or one report at its tail when the test let it. -/
def Joins (ok : Bool) (p q : Rep) : Prop :=
  (q.queue = p.queue ∨ (ok = true ∧ ∃ r, q.queue = p.queue ++ [r]))
  ∧ q.maskDrop = p.maskDrop ∧ q.maskService = p.maskService ∧ q.maskFrame = p.maskFrame

theorem repEngine_joins (ok : Bool) (c : EngineChange) (p : Rep) : Joins ok p (repEngine ok c p) := by
  unfold repEngine Joins
  repeat' split
  all_goals simp_all

theorem repDrop_joins (ok : Bool) (d : Fin Config.dropCount) (c : DropChange) (p : Rep) :
    Joins ok p (repDrop ok d c p) := by
  unfold repDrop Joins
  repeat' split
  all_goals simp_all

theorem repService_joins (ok : Bool) (d : Fin Config.dropCount) (p : Rep) : Joins ok p (repService ok d p) := by
  unfold repService Joins
  repeat' split
  all_goals simp_all

theorem repFrame_joins (ok : Bool) (f : FrameSummary) (p : Rep) : Joins ok p (repFrame ok f p) := by
  unfold repFrame Joins
  repeat' split
  all_goals simp_all

/-- The masks of a latch cleared, and its queue. -/
@[simp] theorem clearLatch_queue (p : Rep) (l : LatchId) : (clearLatch p l).queue = p.queue := by
  cases l <;> rfl
@[simp] theorem clearLatch_nextSeq (p : Rep) (l : LatchId) : (clearLatch p l).nextSeq = p.nextSeq := by
  cases l <;> rfl
@[simp] theorem clearLatch_maskDrop (p : Rep) (l : LatchId) : (clearLatch p l).maskDrop = p.maskDrop := by
  cases l <;> rfl
@[simp] theorem clearLatch_maskService (p : Rep) (l : LatchId) :
    (clearLatch p l).maskService = p.maskService := by cases l <;> rfl
@[simp] theorem clearLatch_maskFrame (p : Rep) (l : LatchId) : (clearLatch p l).maskFrame = p.maskFrame := by
  cases l <;> rfl

/-- An offering keeps the masks, and adds reports at the queue's tail only. -/
theorem offering_adds (isOpen : Bool) (t : Nat) (ids : List LatchId) (p : Rep) :
    (∃ added, (offering isOpen t ids p).1.queue = p.queue ++ added ∧ (offering isOpen t ids p).2 = added.length)
    ∧ (offering isOpen t ids p).1.maskDrop = p.maskDrop
    ∧ (offering isOpen t ids p).1.maskService = p.maskService
    ∧ (offering isOpen t ids p).1.maskFrame = p.maskFrame := by
  induction ids generalizing p with
  | nil => simp [offering]
  | cons l rest ih =>
    unfold offering
    split
    · exact ih p
    · rename_i r _
      split
      · obtain ⟨⟨added, hq, hn⟩, h1, h2, h3⟩ := ih (enqueue r (clearLatch p l))
        refine ⟨⟨{ seq := p.nextSeq, report := r } :: added, ?_, ?_⟩, ?_, ?_, ?_⟩
        · simp [hq]
        · simp [hn]
        · simp [h1]
        · simp [h2]
        · simp [h3]
      · simp

/-- An offering keeps the queue within its places (R122, R125). -/
theorem offering_within (isOpen : Bool) (t : Nat) (ids : List LatchId) (p : Rep)
    (h : p.queue.length + t ≤ Config.reportPlaces) :
    (offering isOpen t ids p).1.queue.length + t ≤ Config.reportPlaces := by
  induction ids generalizing p with
  | nil => simpa [offering] using h
  | cons l rest ih =>
    unfold offering
    split
    · exact ih p h
    · split
      · rename_i ha
        apply ih
        simp only [admits, Bool.and_eq_true, decide_eq_true_eq] at ha
        simp
        omega
      · exact h

/-- Nothing is admitted in a closed session (R126). -/
theorem offering_closed (t : Nat) (ids : List LatchId) (p : Rep) : offering false t ids p = (p, 0) := by
  induction ids generalizing p with
  | nil => rfl
  | cons l rest ih =>
    unfold offering
    split
    · exact ih p
    · simp [admits]

end Sys2Proof.Machine
end

