-- ==== Sys2Proof/Laws/Requests.lean ====
section
/-! SUPPORT. What a request command does: it always completes, and its owner acts exactly when the request's turn has
come. -/

namespace Sys2Proof.Machine

/-- The requests that no waiting RESET holds back are outstanding requests (R176). -/
theorem mem_of_mem_upToReset {p : Place} {l : List Place} (h : p ∈ upToReset l) : p ∈ l := by
  induction l with
  | nil => exact h
  | cons q rest ih =>
    unfold upToReset at h
    split at h
    · exact List.mem_cons.mpr (.inl (List.mem_singleton.mp h))
    · rcases List.mem_cons.mp h with h | h
      · exact List.mem_cons.mpr (.inl h)
      · exact List.mem_cons.mpr (.inr (ih h))

/-- A request stands where no waiting RESET holds it back exactly when no RESET that waits was accepted before it. -/
theorem find?_upToReset (want : Place → Bool) (l : List Place) (p : Place) :
    (upToReset l).find? want = some p ↔
      want p = true ∧ ∃ before after, l = before ++ p :: after
        ∧ ∀ q ∈ before, want q = false ∧ waitingReset q = false := by
  induction l with
  | nil => simp [upToReset]
  | cons q rest ih =>
    by_cases hq : want q = true
    · have first : (upToReset (q :: rest)).find? want = some q := by
        unfold upToReset
        split <;> simp [hq]
      rw [first, Option.some.injEq]
      constructor
      · rintro rfl
        exact ⟨hq, [], rest, rfl, fun _ h => absurd h List.not_mem_nil⟩
      · rintro ⟨-, before, after, split_at, none_before⟩
        cases before with
        | nil => exact (List.cons.inj split_at).1
        | cons b bs =>
          have := (none_before b List.mem_cons_self).1
          rw [← (List.cons.inj split_at).1, hq] at this
          cases this
    · have hq' : want q = false := by simpa using hq
      by_cases hr : waitingReset q = true
      · have nothing : (upToReset (q :: rest)).find? want = none := by simp [upToReset, hr, hq']
        rw [nothing]
        constructor
        · intro h
          cases h
        · rintro ⟨at_p, before, after, split_at, none_before⟩
          cases before with
          | nil => rw [← (List.cons.inj split_at).1, hq'] at at_p; cases at_p
          | cons b bs =>
            have := (none_before b List.mem_cons_self).2
            rw [← (List.cons.inj split_at).1, hr] at this
            cases this
      · have hr' : waitingReset q = false := by simpa using hr
        have next : (upToReset (q :: rest)).find? want = (upToReset rest).find? want := by
          simp [upToReset, hr', hq']
        rw [next, ih]
        constructor
        · rintro ⟨at_p, before, after, rfl, none_before⟩
          refine ⟨at_p, q :: before, after, rfl, fun x hx => ?_⟩
          rcases List.mem_cons.mp hx with rfl | hx
          · exact ⟨hq', hr'⟩
          · exact none_before x hx
        · rintro ⟨at_p, before, after, split_at, none_before⟩
          cases before with
          | nil => rw [← (List.cons.inj split_at).1, hq'] at at_p; cases at_p
          | cons b bs =>
            exact ⟨at_p, bs, after, (List.cons.inj split_at).2,
              fun x hx => none_before x (List.mem_cons.mpr (.inr hx))⟩

/-- A request that may be taken waits. -/
theorem isWaiting_of_mayTake {r : Request} {tag : Byte} {payload : List Byte} {s : State}
    (h : mayTake r tag payload s = true) : isWaiting r tag payload s.link = true := by
  unfold mayTake at h
  split at h
  · rename_i p hp
    have hmem := mem_of_mem_upToReset (List.mem_of_find?_eq_some hp)
    have hsome := List.find?_some hp
    simp only [Bool.and_eq_true] at h hsome
    exact List.any_eq_true.mpr ⟨p, hmem, by simp [hsome.1, h.1]⟩
  · simp at h

/-- When its turn has come, a request command is its owner's effect. -/
theorem takeRequest_of_itsTurn {r : Request} {tag : Byte} {payload : List Byte} {s : State}
    (effect : State → State) (h : ItsTurn r tag payload s) :
    takeRequest r tag payload effect s = .next (effect s) := by
  have h' : mayTake r tag payload s = true := h
  simp [takeRequest, isWaiting_of_mayTake h', h']

/-- A request that waits and whose turn has not come stays. -/
theorem takeRequest_of_not_itsTurn {r : Request} {tag : Byte} {payload : List Byte} {s : State}
    (effect : State → State) (hw : isWaiting r tag payload s.link = true) (h : ¬ ItsTurn r tag payload s) :
    takeRequest r tag payload effect s = .next s := by
  have h' : mayTake r tag payload s = false := by simpa [ItsTurn] using h
  simp [takeRequest, hw, h']

/-- A request that does not wait has its frame brought first. -/
theorem takeRequest_of_not_waiting {r : Request} {tag : Byte} {payload : List Byte} {s : State}
    (effect : State → State) (hw : isWaiting r tag payload s.link = false) :
    takeRequest r tag payload effect s =
      if mayTake r tag payload (arrive r tag payload s) then .next (effect (arrive r tag payload s))
      else .next (arrive r tag payload s) := by
  simp [takeRequest, hw]

/-- A request that does not wait cannot be taken. -/
theorem mayTake_of_not_waiting {r : Request} {tag : Byte} {payload : List Byte} {s : State}
    (hw : isWaiting r tag payload s.link = false) : mayTake r tag payload s = false := by
  cases h : mayTake r tag payload s
  · rfl
  · simp [isWaiting_of_mayTake h] at hw

/-- Every next state of a request command is the state, the state with the frame arrived, or the owner's effect on
one of them. -/
theorem takeRequest_cases (r : Request) (tag : Byte) (payload : List Byte) (effect : State → State) (s : State) :
    ∃ u : State, (u = s ∨ u = arrive r tag payload s)
      ∧ (takeRequest r tag payload effect s = .next u
        ∨ (ItsTurn r tag payload u ∧ takeRequest r tag payload effect s = .next (effect u))) := by
  by_cases hw : isWaiting r tag payload s.link = true
  · by_cases h : ItsTurn r tag payload s
    · exact ⟨s, .inl rfl, .inr ⟨h, takeRequest_of_itsTurn effect h⟩⟩
    · exact ⟨s, .inl rfl, .inl (takeRequest_of_not_itsTurn effect hw h)⟩
  · have hw' : isWaiting r tag payload s.link = false := by simpa using hw
    refine ⟨arrive r tag payload s, .inr rfl, ?_⟩
    rw [takeRequest_of_not_waiting effect hw']
    by_cases h : mayTake r tag payload (arrive r tag payload s) = true
    · exact .inr ⟨h, by simp [h]⟩
    · exact .inl (by simp [h])

/-- The arrival of a frame changes LNK only. -/
theorem arrive_cases (r : Request) (tag : Byte) (payload : List Byte) (s : State) :
    arrive r tag payload s = s
      ∨ arrive r tag payload s = s.setLink
          (takeFrame { kind := r.code, tag := tag, payload := payload, check := frameCheck r.code tag payload }
            { s.link with breakHold := false }) := by
  unfold arrive
  split
  · exact .inr rfl
  · exact .inl rfl

end Sys2Proof.Machine
end

