-- ==== Sys2Proof/WellFormed.lean ====
section
/-! DEFINITION. What the outside can produce at all: the well-formed commands.
A request's field values are not judged here: its owner answers a value out of range with a status. -/

namespace Sys2Proof

/-- The longest frame period in bit-times, 2 Mbit/s and P = 64 (R23): no frame timer reads more. -/
def longestFrame : Nat := 16000

/-- A command that a line, a clock or the host can produce:
the payload of ENTRY-LOAD and SUBMIT fits a link frame (R154: LEN is at most 240);
RESET_ENGINE is a RESET whose scope is not ALL (that one is RESET_ALL);
an answer's start bit begins by the deadline, and is recognised half a bit-time later (R49, R58);
the idle tail of an ad hoc stage lies within a frame (R25). -/
def wellFormed : Instr → Bool
  | .entryLoad _ _ _ _ values => decide (3 + 2 * values.length ≤ Config.payloadLimit)
  | .submit _ _ _ _ _ _ _ _ values line =>
    decide (7 + 2 * values.length ≤ Config.payloadLimit) && decide (line.length ≤ Config.ticks * longestFrame)
  | .cancel _ _ line => decide (line.length ≤ Config.ticks * longestFrame)
  | .resetEngine _ scope _ => scope != 1
  | .answerStartBit line =>
    decide (line.length ≤ Config.ticks * Config.answerDeadline + Config.ticks / 2 + 1)
  | .powerOn .. | .linkFrameComplete .. | .linkFrameAbandon .. | .linkIdleGapExpiry | .linkBreak
  | .linkCharacterReceived .. => true
  | .openSession .. | .closeSession .. | .identify .. | .status .. | .ackReports .. | .resetAll .. => true
  | .entryAdd .. | .entrySet .. | .entryRead .. | .entryFree .. => true
  | .chainInsert .. | .chainRemove .. | .chainRead .. | .scheduleLength .. => true
  | .busConfig .. | .start .. | .halt .. | .quiet .. | .wake .. => true
  | .dropAttach .. | .dropDetach .. | .dropRead .. | .dropClearService .. => true
  | .setConfig .. | .setRead .. | .eventMask .. => true
  | .frameStart .. | .quietBoundary | .settlingBoundary .. | .wakePulse .. => true
  | .broadcastGapEnd .. | .broadcastFrameEnd | .requestFrameEnd | .answerDeadline .. | .answerEnd ..
  | .attemptEnd .. => true
  | .txFrameStart | .replySent | .reportFrameSent | .resendTimeout | .silenceTimeout => true

end Sys2Proof
end

