-- ==== Sys2Proof/Tests/Slice0.lean ====
section
/-! SUPPORT. Small checks on fixed values. `smoke_…`: each check of `wellFormed` refuses an ill-formed command.
`test_…`: values the spec gives. `witness_…`: states and operands that meet the hypotheses of each statement, clause by
clause, at the ends of the ranges. -/

namespace Sys2Proof.Tests

-- One theorem at a time, so that few threads wait for the kernel.
set_option Elab.async false

open Sys2Proof.Machine

/-! ### Small states -/

/-- A broadcast handed over at the default rate. -/
def handed (b : Broadcast) : Handed := { what := b, rate := .m1 }

/-- Ticks of an idle line. -/
def highs (n : Nat) : List Level := List.replicate n .high

/-- Ticks of a low line. -/
def lows (n : Nat) : List Level := List.replicate n .low

/-- The session of an OPEN with window 4, resend timeout 5, silence timeout 20, action CONTINUE. -/
def session : Session :=
  { Session.initial with
    state := .opened, window := 4, resendTime := 5, silenceTime := 20, silence := some 2000 }

/-- Reset with an open session. -/
def opened : State := State.reset.setLink { Link.initial with session := session }

/-- A place with a request that waits. -/
def place (r : Request) (tag : Byte) (payload : List Byte) : Place :=
  { tag := tag, check := 0x1234, kind := r.code, payload := payload, inOpen := true, phase := .waiting }

/-- The state with a request of tag 7 that waits at its owner. -/
def ask (r : Request) (payload : List Byte) (s : State) : State :=
  s.setLink { s.link with places := s.link.places ++ [place r 7 payload] }

/-- The state after a command. -/
def after (c : Instr) (s : State) : State :=
  match exec c s with
  | .next t => t
  | .fault _ => s
  | .refused _ => s

/-- The payload of the last reply made ready by a command. -/
def replied (c : Instr) (s : State) : List Byte :=
  ((after c s).link.outbox.getLast?.map OutReply.payload).getD []

/-- A command whose request waits and whose turn has come, and the reply it makes. -/
def answers (c : Instr) (payload : List Byte) (s : State) : Bool :=
  match requestOf c with
  | some (r, tag, bytes) => mayTake r tag bytes (ask r bytes s) && replied c (ask r bytes s) == payload
  | none => false

/-- A READ of 2 values of drop 1, with a route to set 0 at offset 1. -/
def readParams : ParamBlock :=
  { kind := 1, drop := 1, first := 0, inCount := 2, outCount := 0, retries := 1, routeFlag := 1, routeSet := 0,
    routeOffset := 1 }

/-- The transaction of `readParams`. -/
def readTrans : Transaction := { kind := .read, drop := 0, first := 0, inCount := 2, outCount := 0, retries := 1 }

/-- The entry of `readParams`. -/
def readBody : EntryBody :=
  { trans := readTrans, route := some { set := 0, offset := 1 }, outputs := [], done := 0, failed := 0,
    skipped := 0, notReady := 0, last := .never, linkCount := 1 }

/-- A WRITE of 2 values to drop 24, in no chain. -/
def writeBody : EntryBody :=
  { trans := { kind := .write, drop := 23, first := 62, inCount := 0, outCount := 2, retries := 0 },
    route := none, outputs := [5, 6], done := 0, failed := 0, skipped := 0, notReady := 0, last := .never,
    linkCount := 0 }

/-- Entry 0 in the chain of slot 0, and entry 127 in none. -/
def schedule : Scm :=
  { entries := tput (tput Scm.initial.entries 0 { gen := 3, body := some readBody }) 127
      { gen := 255, body := some writeBody },
    chains := tput Scm.initial.chains 0 [0], schedLen := 1 }

/-- An open session with a schedule, drop 1 ONLINE and set 0 in BLOCK. -/
def loaded : State :=
  ((opened.setScm schedule).setDrm { Drm.initial with
    drops := tput Drm.initial.drops 0
      { DropRec.initial with state := .online, identity := some { kind := 1, points := 8 } } }).setRst
    { sets := tput Rst.initial.sets 0 { SetRec.initial with mode := .block } }

/-- A periodic item of entry 0. -/
def item : Item := { source := .periodic { index := 0, gen := 3 }, retries := 1, attempts := 1, lastError := none }

/-- RUNNING, in the periodic stage, with the first attempt of entry 0 on the line, one ticket waiting and one report
sent and not acknowledged. -/
def walking : State :=
  let s := (loaded.setFen { loaded.fen with
      engine := .running, timer := some 272, frame := 1, plan := [{ index := 0, gen := 3 }], planPos := 1,
      stage := .periodic, item := some item, ticket := 1,
      queue := [{ ticket := 1, trans := readTrans, outputs := [], force := false }] }).setBtx
    { loaded.btx with state := .request, dbde := true, capture := some (captureOf readTrans []) }
  (s.setRep { s.rep with queue := [{ seq := 0, report := .service 0 }], nextSeq := 1 }).setLink
    { s.link with send := { SendState.cleared with unacked := 1, position := 1, timer := some 50 } }

/-- RUNNING between frames: the bus idle, nothing in progress, in the tail of the ad hoc stage. -/
def between : State :=
  loaded.setFen { loaded.fen with engine := .running, timer := some 3600, frame := 65535, stage := .adHoc }

/-- The engine in another state, nothing on the bus. -/
def inEngine (e : EngineState) : State := loaded.setFen { loaded.fen with engine := e, timer := some 3600 }

/-! ### Well-formed commands -/

theorem smoke_entryLoad_payload :
    wellFormed (.entryLoad 0 0 0 0 (List.replicate 119 0)) = false
      ∧ wellFormed (.entryLoad 0 0 0 0 (List.replicate 118 0)) = true := by decide

theorem smoke_submit_payload :
    wellFormed (.submit 0 1 1 0 1 0 0 0 (List.replicate 117 0) []) = false
      ∧ wellFormed (.submit 0 1 1 0 1 0 0 0 (List.replicate 116 0) []) = true := by decide

theorem smoke_submit_line :
    wellFormed (.submit 0 1 1 0 1 0 0 0 [] (highs 64001)) = false
      ∧ wellFormed (.submit 0 1 1 0 1 0 0 0 [] (highs 64000)) = true := by
  simp only [wellFormed, highs, List.length_replicate]
  decide

theorem smoke_cancel_line :
    wellFormed (.cancel 0 1 (highs 64001)) = false ∧ wellFormed (.cancel 0 1 (highs 64000)) = true := by
  simp only [wellFormed, highs, List.length_replicate]
  decide

theorem smoke_resetEngine_scope :
    wellFormed (.resetEngine 0 1 []) = false ∧ wellFormed (.resetEngine 0 0 []) = true := by decide

theorem smoke_answerStartBit_line :
    wellFormed (.answerStartBit (highs 100)) = false ∧ wellFormed (.answerStartBit (highs 96 ++ lows 3)) = true := by
  decide

/-! ### Values the spec gives -/

theorem test_busCheck_of_one : busCheck [0x01] = 0x8BB7 := by decide +kernel

theorem test_linkCheck_of_zero : linkCheck [0x00] = 0xFD02 := by decide +kernel

theorem test_reset_is_powerOn : exec (.powerOn false false) State.reset = .next State.reset := rfl

theorem test_no_word_spells_a_command : decodeTableWord 0 0 = none ∧ State.reset.withFetchWord 0 0 = State.reset :=
  ⟨rfl, rfl⟩

theorem test_character_levels :
    characterBits 0x01 false = [.low, .high, .low, .low, .low, .low, .low, .low, .low, .high]
      ∧ (characterBits 0x01 true).getD 9 .high = .low := by decide

theorem test_default_budget :
    BusConfig.initial.frameLen = 1000 ∧ BusConfig.initial.guardStart = 936 ∧ BusConfig.initial.budget = 868 := by
  decide

/-- The SUBMIT example of 10.6 on both lines, and the TICKET-DONE example of 10.5. -/
theorem test_example_bytes :
    (requestFrame { cmd := .exchange, drop := 4, first := 10, inCount := 1, outCount := 1, outputs := [0x1234] }).take 8
        = [0x5A, 0x05, 0x03, 0x0A, 0x01, 0x01, 0x12, 0x34]
      ∧ (linkFrame 0xA8 0x21 (0x01 :: linkWord 12)).take 7 = [0xC3, 0x03, 0xA8, 0x21, 0x01, 0x0C, 0x00]
      ∧ (answerFrame 5 0 [0x00C8]).take 5 = [0x05, 0x00, 0x01, 0x00, 0xC8]
      ∧ Report.payload (.ticketDone
          { ticket := 300, outcome := .ok, lastError := some .badCheck, attempts := 2, frame := 4097,
            flags := some (false, true), values := [0x0102, 0x0A0B] })
        = [0x2C, 0x01, 1, 2, 2, 0x01, 0x10, 0x82, 2, 0x02, 0x01, 0x0B, 0x0A] := by decide +kernel

/-! ### Witnesses: the step and receiving frames -/

theorem witness_StepRunsTheFrontCommand : State.reset.pending = [] := rfl

/-- A second request at the same owner waits behind the first. -/
def behind : State :=
  opened.setLink { opened.link with places := [place .identify 7 [], place .status 8 []] }

theorem witness_RequestCommandBringsTheFrame :
    (requestOf (.status 8) = some (.status, 8, []) ∧ isWaiting .status 8 [] behind.link = true
      ∧ ¬ ItsTurn .status 8 [] behind)
    ∧ (let s := fun scope : Byte => opened.setLink { opened.link with
        places := [place .start 1 [], place .reset 2 [scope], place .halt 3 [], place .setRead 4 [0]] };
      ItsTurn .start 1 [] (s 1) ∧ ItsTurn .reset 2 [1] (s 1) ∧ ¬ ItsTurn .setRead 4 [0] (s 1)
        ∧ ¬ ItsTurn .halt 3 [] (s 2) ∧ ItsTurn .setRead 4 [0] (s 2)
        ∧ ¬ ItsTurn .start 1 [] ((s 1).setFen { opened.fen with resetPending := true }))
    ∧ (requestOf (.halt 9) = some (.halt, 9, []) ∧ isWaiting .halt 9 [] opened.link = false
      ∧ opened.link.receiver = .hunting
      ∧ ItsTurn .halt 9 [] (opened.setLink
          (takeFrame { kind := 0x22, tag := 9, payload := [], check := frameCheck 0x22 9 [] }
            { opened.link with breakHold := false })))
    ∧ (isWaiting .halt 9 [] State.reset.link = false ∧ State.reset.link.receiver = .hunting
      ∧ ¬ ItsTurn .halt 9 [] (State.reset.setLink
          (takeFrame { kind := 0x22, tag := 9, payload := [], check := frameCheck 0x22 9 [] }
            { State.reset.link with breakHold := false })))
    ∧ 240 < (([0, 0, 0] : List Byte) ++ (List.replicate 119 (0 : Word)).flatMap linkWord).length
    ∧ (opened.setLink { opened.link with receiver := .collecting [] }).link.receiver ≠ .hunting := by
  simp only [ItsTurn]
  decide +kernel

theorem witness_FrameCharactersMakeARequest :
    opened.link.receiver = .hunting ∧ (List.replicate 240 (0 : Byte)).length ≤ 240
      ∧ (receiveCharacters (linkFrame 0x22 9 []) opened).link.places.map Place.tag = [9]
      ∧ (after (.linkCharacterReceived 0xC3 false) opened).link.receiver = .collecting []
      ∧ (after (.linkCharacterReceived 0xC3 true) opened).link.receiver = .hunting
      ∧ (let s := opened.setLink { opened.link with receiver := .collecting [] };
        (after (.linkCharacterReceived 240 false) s).link.receiver = .collecting [240]
          ∧ (after (.linkCharacterReceived 241 false) s).link.badFrames = 1
          ∧ (after (.linkCharacterReceived 0 true) s).link.badFrames = 1)
      ∧ (let s := opened.setLink { opened.link with receiver := .collecting [0, 0x22, 9] };
        (after (.linkCharacterReceived 7 false) s).link.receiver = .collecting [0, 0x22, 9, 7])
      ∧ (let s := opened.setLink { opened.link with receiver := .collecting [0, 0x22, 9, 7] };
        (after (.linkCharacterReceived 7 false) s).link.receiver = .hunting) := by decide +kernel

/-- A frame of no payload with its first CHECK byte received. -/
def nearlyWhole : State :=
  opened.setLink { opened.link with
    receiver := .collecting [0, 0x22, 9, lowByte (frameCheck 0x22 9 [])] }

theorem witness_FramesCompletedOrAbandoned :
    (nearlyWhole.link.receiver = .collecting [0, 0x22, 9, lowByte (frameCheck 0x22 9 [])]
      ∧ linkCheck [0, 0x22, 9] =
          wordFrom (highByte (frameCheck 0x22 9 [])) (lowByte (frameCheck 0x22 9 []))
      ∧ ((after (.linkFrameComplete (highByte (frameCheck 0x22 9 []))) nearlyWhole).link.places.map Place.tag = [9])
      ∧ linkCheck [0, 0x22, 9] ≠
          wordFrom (highByte (frameCheck 0x22 9 []) + 1) (lowByte (frameCheck 0x22 9 []))
      ∧ (after (.linkFrameComplete (highByte (frameCheck 0x22 9 []) + 1)) nearlyWhole).link.badFrames = 1)
    ∧ (let s := opened.setLink { opened.link with receiver := .collecting [] };
      s.link.receiver = .collecting [] ∧ 240 < (241 : Byte).toNat
      ∧ (after (.linkFrameAbandon 241 false) s).link.badFrames = 1
      ∧ (after (.linkFrameAbandon 240 false) s).link.badFrames = 0
      ∧ (after .linkIdleGapExpiry s).link.badFrames = 1 ∧ (after .linkBreak s).link.breakHold = true)
    ∧ opened.link.receiver = .hunting := by decide +kernel

/-- A frame with this kind, tag and payload. -/
def frame (kind tag : Byte) (payload : List Byte) : Frame :=
  { kind := kind, tag := tag, payload := payload, check := 0x1234 }

/-- LNK of an open session with these places. -/
def withPlaces (places : List Place) : Link := { opened.link with places := places }

theorem witness_FrameTakenInFiveSteps :
    (let sent : OutReply := { kind := 0xA2, tag := 9, payload := [0], check := 0x1234, origin := .request };
      let l := { withPlaces [] with memory := [sent] };
      (∃ m ∈ (restartSilence l).memory, m.tag = 9 ∧ m.check = 0x1234)
        ∧ (takeFrame (frame 0x22 9 []) l).outbox = [{ sent with origin := .short }])
    ∧ ((restartSilence (withPlaces [place .halt 9 []])).placeOf 9 = some (place .halt 9 [])
      ∧ (takeFrame (frame 0x22 9 []) (withPlaces [place .halt 9 []])).outbox = []
      ∧ (takeFrame { frame 0x22 9 [] with check := 1 } (withPlaces [place .halt 9 []])).outbox.map OutReply.payload
          = [[0x11]])
    ∧ ((takeFrame (frame 0x22 9 []) (withPlaces (List.replicate 4 (place .halt 1 [])))).outbox.map OutReply.payload
          = [[0x10]]
      ∧ (takeFrame (frame 0x22 9 []) (withPlaces (List.replicate 3 (place .halt 1 [])))).places.length = 4)
    ∧ (requestOfKind 0x3D = none
      ∧ (takeFrame (frame 0x3D 9 []) (withPlaces [])).outbox.map OutReply.payload = [[0x12]])
    ∧ (lengthOk .halt [0] = false
      ∧ (takeFrame (frame 0x22 9 [0]) (withPlaces [])).outbox.map OutReply.payload = [[0x13]])
    ∧ ((restartSilence Link.initial).session.state ≠ .opened
      ∧ (takeFrame (frame 0x22 9 []) Link.initial).outbox.map OutReply.payload = [[0x14]]
      ∧ (takeFrame (frame 0x04 9 []) Link.initial).places.map Place.phase = [.waiting])
    ∧ (requestOfKind 0x01 = some .open_ ∧ requestOfKind 0x3C = some .eventMask ∧ requestOfKind 0x07 = none)
    ∧ (lengthOk .entryLoad (List.replicate 5 0) = true ∧ lengthOk .entryLoad (List.replicate 35 0) = true
      ∧ lengthOk .entryLoad (List.replicate 37 0) = false ∧ lengthOk .submit [1, 1, 0, 0, 1, 0, 0, 8, 9] = true
      ∧ lengthOk .submit [1, 1, 0, 0, 1, 0, 0, 8] = false) := by decide +kernel

theorem witness_ReplyAnswersTheRequest :
    (ask .halt [] opened).link.placeOf 7 = some (place .halt 7 []) := by decide +kernel

/-! ### Witnesses: the session requests -/

theorem witness_OpenAndClose :
    (answers (.openSession 7 4 5 20 0) [0x15] opened
      ∧ answers (.openSession 7 0 5 20 0) [0x21] State.reset ∧ answers (.openSession 7 9 5 20 0) [0x21] State.reset
      ∧ answers (.openSession 7 4 26 20 0) [0x21] State.reset ∧ answers (.openSession 7 4 5 0 0) [0x21] State.reset
      ∧ answers (.openSession 7 4 5 51 0) [0x21] State.reset ∧ answers (.openSession 7 4 5 20 2) [0x21] State.reset
      ∧ answers (.openSession 7 1 0 1 0) [0, 1, 5, 1, 0, 0, 0, 0, 0] State.reset
      ∧ answers (.openSession 7 8 25 50 1) [0, 8, 25, 50, 1, 0, 0, 0, 0] State.reset) = true
    ∧ answers (.closeSession 7) [0] opened = true
    ∧ State.reset.rep.queue = [] ∧ ticketCount State.reset.fen = 0 := by decide +kernel

theorem witness_IdentifyReturnsTheCapacities :
    answers (.identify 7) [0, 0x24, 0x4C, 1, 0, 24, 128, 32, 32, 16, 16, 32, 4, 8] State.reset = true := by
  decide +kernel

theorem witness_StatusReturnsAView :
    answers (.status 7)
      [0, 1, 1, 0, 1, 1, 1, 4, 5, 20, 0, 0, 0, 0, 1, 0, 0, 1, 1, 0, 0, 0, 0, 0, 0, 0, 0, 0, 0, 0] walking = true := by
  decide +kernel

theorem witness_AckReportsRemovesOrResends :
    answers (.ackReports 7 0) [0, 1, 1, 0] walking = true ∧ oldestSeq walking.rep = 0
    ∧ walking.link.send.unacked = 1
    ∧ answers (.ackReports 7 255) [0, 0, 0, 0] walking = true
    ∧ answers (.ackReports 7 1) [0x16] walking = true := by decide +kernel

/-- A state with BTX in a state of its own. -/
def onBus (x : BtxState) (s : State) : State := s.setBtx { s.btx with state := x }

theorem witness_ResetEngineStopsTheEngine :
    (answers (.resetEngine 7 0 []) [0, 0, 0, 0, 0, 0] walking
      && answers (.resetEngine 7 0 []) [0, 0, 0, 0, 0, 0] opened
      && answers (.resetEngine 7 2 []) [0x21] opened) = true
    ∧ walking.fen.engine ≠ .quiet ∧ walking.fen.engine ≠ .waking
    ∧ (ItsTurn .reset 7 [1] (ask .reset [1] opened)
      ∧ after (.resetEngine 7 1 []) (ask .reset [1] opened) = ask .reset [1] opened)
    ∧ ((after (.resetEngine 7 0 [.low, .high]) (ask .reset [0] (onBus .wait walking))).btx.jamRecord = 0xC
      ∧ (after (.resetEngine 7 0 [.low, .high]) (ask .reset [0] walking)).btx.jamRecord = 0)
    ∧ ((onBus (.broadcast (handed .quiet)) loaded).btx.state = .broadcast (handed .quiet)
      ∧ (after (.resetEngine 7 0 []) (ask .reset [0] (onBus (.broadcast (handed .quiet)) loaded))).btx.state
          = .broadcast (handed .quiet)) := by
  simp only [ItsTurn]
  decide +kernel

/-- The closing gap of the RESUME of a RESET ENGINE. -/
def resuming : State :=
  onBus (.gap (.broadcast (handed .resume)))
    ((inEngine .quiet).setFen { (inEngine .quiet).fen with timer := none, resetPending := true })

theorem witness_ResetEngineResumesTheBusFirst :
    (ItsTurn .reset 7 [0] (ask .reset [0] (inEngine .quiet)) ∧ (inEngine .quiet).btx.state = .idle)
    ∧ (let s := (inEngine .waking).setBtx { loaded.btx with
          state := .broadcast (handed .quiet), dbde := true, waiting := [handed .resume] };
      ItsTurn .reset 7 [0] (ask .reset [0] s) ∧ s.fen.engine = .waking ∧ s.btx.state ≠ .idle
        ∧ (after (.resetEngine 7 0 []) (ask .reset [0] s)).btx.waiting = [handed .resume])
    ∧ (resuming.btx.state = .gap (.broadcast (handed .resume)) ∧ resuming.btx.waiting = []
      ∧ resuming.fen.resetPending = true ∧ resuming.fen.item = none ∧ resuming.fen.engine ≠ .stopped
      ∧ (after (.broadcastGapEnd []) resuming).fen.engine = .stopped
      ∧ (after (.broadcastGapEnd []) resuming).rep.queue.length = 1) := by
  simp only [ItsTurn]
  decide +kernel

theorem witness_ResetAllClearsEveryBlock :
    answers (.resetAll 7) [0, 1, 0, 0, 0, 1] walking = true
    ∧ (let s := walking.setLink { walking.link with ltx := .report { seq := 0, report := .service 0 } true };
      (after (.resetAll 7) (ask .reset [1] s)).link.ltx = .report { seq := 0, report := .service 0 } false) := by
  decide +kernel

/-! ### Witnesses: the schedule memory -/

theorem witness_TransactionRanges :
    (parseTransaction 1 1 0 1 0 0).isSome = true ∧ (parseTransaction 1 24 48 16 0 3).isSome = true
    ∧ (parseTransaction 2 1 63 0 1 0).isSome = true ∧ (parseTransaction 3 24 48 16 16 3).isSome = true
    ∧ (parseTransaction 1 0 0 1 0 0).isSome = false ∧ (parseTransaction 1 25 0 1 0 0).isSome = false
    ∧ (parseTransaction 1 1 49 16 0 0).isSome = false ∧ (parseTransaction 2 1 0 1 1 0).isSome = false
    ∧ (parseTransaction 1 1 0 1 0 4).isSome = false ∧ (parseTransaction 4 1 0 1 0 0).isSome = false
    ∧ parseParams readParams = some (readTrans, some { set := 0, offset := 1 })
    ∧ parseParams { readParams with routeFlag := 0 } = some (readTrans, none)
    ∧ parseParams { readParams with routeSet := 15, routeOffset := 15 } = some (readTrans, some { set := 15, offset := 15 })
    ∧ parseParams { readParams with routeSet := 16 } = none ∧ parseParams { readParams with routeOffset := 16 } = none
    ∧ parseParams { readParams with routeFlag := 2 } = none
    ∧ routeFits Rst.initial 2 (some { set := 0, offset := 1 }) = true
    ∧ routeFits Rst.initial 2 (some { set := 0, offset := 2 }) = false := by decide +kernel

/-- A poll store with no FREE entry. -/
def fullStore : State := opened.setScm { Scm.initial with entries := Vector.replicate _ { gen := 0, body := some writeBody } }

theorem witness_EntryAddCreatesAnEntry :
    (answers (.entryAdd 7 { readParams with retries := 4 }) [0x21] opened
      && answers (.entryAdd 7 { readParams with routeOffset := 2 }) [0x23] opened
      && answers (.entryAdd 7 readParams) [0x30] fullStore
      && answers (.entryAdd 7 readParams) [0, 0, 0] opened && answers (.entryAdd 7 readParams) [0, 1, 0] loaded)
      = true
    ∧ parseParams readParams = some (readTrans, some { set := 0, offset := 1 }) := by decide +kernel

theorem witness_EntrySetReplacesTheFields :
    (answers (.entrySet 7 128 3 readParams) [0x21] loaded && answers (.entrySet 7 1 0 readParams) [0x22] loaded
      && answers (.entrySet 7 0 2 readParams) [0x22] loaded
      && answers (.entrySet 7 0 3 { readParams with drop := 25 }) [0x21] loaded
      && answers (.entrySet 7 0 3 { readParams with routeOffset := 2 }) [0x23] loaded
      && answers (.entrySet 7 127 255 readParams) [0, 127, 255] loaded) = true := by decide +kernel

theorem witness_EntryLoadWritesOutputs :
    (answers (.entryLoad 7 128 0 0 [9]) [0x21] loaded && answers (.entryLoad 7 127 0 0 [9]) [0x22] loaded
      && answers (.entryLoad 7 127 255 1 [8, 9]) [0x21] loaded && answers (.entryLoad 7 127 255 1 [9]) [0] loaded
      && answers (.entryLoad 7 127 255 0 [8, 9]) [0] loaded) = true
    ∧ writeBody.outputs.length = writeBody.trans.outCount := by decide +kernel

theorem witness_EntryReadReturnsTheRecord :
    (answers (.entryRead 7 128) [0x21] loaded && answers (.entryRead 7 1) [0, 1, 0, 0] loaded
      && answers (.entryRead 7 127)
        [0, 127, 1, 255, 2, 24, 62, 0, 2, 0, 0, 0, 0, 202, 0, 0, 0, 0, 0, 0, 0, 0, 0, 0, 0, 0, 5, 0, 6, 0] loaded)
      = true := by decide +kernel

theorem witness_EntryFreeFreesAnEntry :
    (answers (.entryFree 7 128 0) [0x21] loaded && answers (.entryFree 7 127 0) [0x22] loaded
      && answers (.entryFree 7 0 3) [0x31] loaded && answers (.entryFree 7 127 255) [0, 127, 0] loaded) = true := by
  decide +kernel

/-- The chain of slot 31 full, of other entries. -/
def fullChain : State :=
  loaded.setScm { loaded.scm with
    chains := tput loaded.scm.chains 31 ((List.range 32).map fun k => Fin.ofNat _ (k + 1)) }

theorem witness_ChainInsertLinksAnEntry :
    (answers (.chainInsert 7 32 0 0 3) [0x21] loaded && answers (.chainInsert 7 0 0 128 3) [0x21] loaded
      && answers (.chainInsert 7 31 0 0 2) [0x22] loaded && answers (.chainInsert 7 31 1 0 3) [0x21] loaded
      && answers (.chainInsert 7 0 0 0 3) [0x32] loaded && answers (.chainInsert 7 31 32 0 3) [0x33] fullChain
      && answers (.chainInsert 7 0 1 127 255) [0, 2] loaded) = true
    ∧ (tget (after (.chainInsert 7 0 1 127 255) (ask .chainInsert [0, 1, 127, 255] loaded)).scm.chains 0) = [0, 127]
    := by decide +kernel

theorem witness_ChainRemoveUnlinksAnEntry :
    (answers (.chainRemove 7 32 0) [0x21] loaded && answers (.chainRemove 7 0 128) [0x21] loaded
      && answers (.chainRemove 7 31 0) [0x34] loaded && answers (.chainRemove 7 0 0) [0, 0] loaded) = true
    ∧ tget loaded.scm.chains 0 = [] ++ 0 :: [] := by decide +kernel

theorem witness_ChainReadReturnsTheChain :
    (answers (.chainRead 7 32) [0x21] loaded && answers (.chainRead 7 31) [0, 31, 0] loaded
      && answers (.chainRead 7 0) [0, 0, 1, 0] loaded) = true := by decide +kernel

theorem witness_ScheduleLengthSetsL :
    (answers (.scheduleLength 7 3) [0x21] loaded && answers (.scheduleLength 7 1) [0, 1] loaded
      && answers (.scheduleLength 7 32) [0, 32] walking) = true := by decide +kernel

/-! ### Witnesses: the frame engine -/

/-- STOPPED with one ticket waiting. -/
def queued : State :=
  loaded.setFen { loaded.fen with queue := [{ ticket := 1, trans := readTrans, outputs := [], force := false }] }

/-- The default bus with the longest guard that leaves room for a probe: B is 202. -/
theorem witness_BusConfigReplacesTheConfiguration :
    (answers (.busConfig 7 2 8 64 4) [0x20] between && answers (.busConfig 7 4 8 64 4) [0x21] loaded
      && answers (.busConfig 7 2 3 64 4) [0x21] loaded && answers (.busConfig 7 2 65 64 4) [0x21] loaded
      && answers (.busConfig 7 2 8 64 0) [0x21] loaded && answers (.busConfig 7 0 9 12 1) [0x21] loaded
      && answers (.busConfig 7 0 9 11 1) [0, 25, 1, 202, 0] loaded
      && answers (.busConfig 7 0 9 11 1) [0, 25, 1, 202, 0] queued
      && answers (.busConfig 7 3 64 255 255) [0, 128, 62, 61, 61] loaded
      && answers (.busConfig 7 0 9 11 1) [0x23]
        (queued.setFen { queued.fen with
          queue := [{ ticket := 1, trans := { readTrans with inCount := 3 }, outputs := [], force := false }] }))
      = true := by decide +kernel

/-- STOPPED with the QUIET broadcast of an earlier QUIET still on the line. -/
def broadcasting : State := loaded.setBtx { loaded.btx with state := .broadcast (handed .quiet), dbde := true }

theorem witness_StartBeginsTheFirstFrame :
    (answers (.start 7 []) [4] between && answers (.start 7 []) [0x20] (inEngine .halting)
      && answers (.start 7 []) [0x20] (inEngine .quiet) && answers (.start 7 []) [0x20] (inEngine .waking)
      && answers (.start 7 []) [0] loaded && answers (.start 7 []) [0] broadcasting) = true
    ∧ (after (.start 7 []) (ask .start [] loaded)).fen.frame = 1
    ∧ (after (.start 7 [.low]) (ask .start [] loaded)).fen.jamCount = 1
    ∧ (after (.start 7 []) (ask .start [] broadcasting)).fen.startPending = true := by decide +kernel

theorem witness_HaltStopsTheEngine :
    (answers (.halt 7) [0] loaded && answers (.halt 7) [0x20] (inEngine .quiet)
      && answers (.halt 7) [] (inEngine .halting) && answers (.halt 7) [] walking && answers (.halt 7) [0] between
      && answers (.halt 7) [0] (inEngine .waking)) = true
    ∧ (let s := between.setFen { between.fen with quietPending := true };
      ItsTurn .halt 7 [] (ask .halt [] s) ∧ s.fen.item = none
        ∧ (after (.halt 7) (ask .halt [] s)).fen.engine = .quiet)
    ∧ (inEngine .waking).fen.stage ≠ .periodic := by
  simp only [ItsTurn]
  decide +kernel

theorem witness_QuietSendsTheBusQuiet :
    (answers (.quiet 7) [] between && answers (.quiet 7) [0x20] (inEngine .halting)
      && answers (.quiet 7) [4] (inEngine .quiet) && answers (.quiet 7) [0] loaded
      && answers (.quiet 7) [0] (inEngine .waking)) = true
    ∧ broadcasting.btx.state ≠ .idle
    ∧ (after (.quiet 7) (ask .quiet [] broadcasting)).btx.waiting = [handed .quiet] := by decide +kernel

theorem witness_WakeEntersWaking :
    (answers (.wake 7) [0x20] loaded && answers (.wake 7) [0x20] between && answers (.wake 7) [0x20] (inEngine .halting)
      && answers (.wake 7) [] (inEngine .waking) && answers (.wake 7) [] (inEngine .quiet)) = true
    ∧ (after (.wake 7) (ask .wake [] (inEngine .quiet))).fen.timer = some 0
    ∧ (let s := onBus (.broadcast (handed .quiet)) (inEngine .quiet);
      s.btx.state ≠ .idle ∧ (after (.wake 7) (ask .wake [] s)).fen.timer = none) := by decide +kernel

/-- A RESUME that waits keeps the rate it was handed over at, whatever BUS-CONFIG a HALT lets through (R56). -/
theorem test_waiting_resume_keeps_its_rate :
    (let s := onBus (.broadcast (handed .quiet)) (inEngine .quiet);
    let woken := after (.wake 7) (ask .wake [] s);
    let stopped := after (.halt 8) (woken.setLink { s.link with places := [{ place .halt 7 [] with tag := 8 }] });
    let set := after (.busConfig 9 0 16 64 4) (stopped.setLink { s.link with
      places := [{ place .busConfig 7 [0, 16, 64, 4] with tag := 9 }] });
    (set.fen.config.rate, set.btx.waiting) = (.k250, [handed .resume])) := by decide +kernel

theorem witness_SubmitIssuesATicket :
    (answers (.submit 7 1 1 0 1 0 4 0 [] []) [0x21] loaded && answers (.submit 7 1 1 0 1 0 0 2 [] []) [0x21] loaded
      && answers (.submit 7 1 1 0 2 0 1 0 [] []) [0x36]
        (loaded.setFen { loaded.fen with config := { loaded.fen.config with guard := 731 } })
      && answers (.submit 7 1 1 0 2 0 1 0 [] []) [0x37]
        (loaded.setFen { loaded.fen with
          queue := List.replicate 16 { ticket := 1, trans := readTrans, outputs := [], force := false } })
      && answers (.submit 7 1 1 0 2 0 1 1 [] []) [1, 2, 0] queued
      && answers (.submit 7 1 1 0 2 0 1 0 [] (highs 8)) [1, 1, 0] between) = true
    ∧ (parseTransaction 1 1 0 2 0 1 = some readTrans ∧ readTrans.cost ≤ queued.fen.config.budget
      ∧ ticketCount queued.fen < 16 ∧ queued.rep.queue.length + ticketCount queued.fen < 32)
    ∧ (let t := after (.submit 7 1 1 0 2 0 1 0 [] (highs 7 ++ [.low])) (ask .submit [1, 1, 0, 2, 0, 1, 0] between);
      t.fen.timer = some 3608 ∧ t.btx.jamRecord = 3 ∧ t.fen.ticket ≠ between.fen.ticket) := by decide +kernel

/-- RUNNING with a ticket in flight. -/
def flying : State :=
  walking.setFen { walking.fen with item := some { item with source := .adHoc 9 true }, stage := .adHoc }

/-- The tail of the ad hoc stage with a head that did not fit. -/
def tailed : State := between.setFen { between.fen with queue := queued.fen.queue }

theorem witness_CancelWithdrawsATicket :
    (answers (.cancel 7 1 []) [2] queued && answers (.cancel 7 1 []) [2] tailed && answers (.cancel 7 9 []) [3] flying
      && answers (.cancel 7 2 []) [0x35] queued) = true
    ∧ (1 : Word) ∈ queued.fen.queue.map AdHoc.ticket ∧ (9 : Word) ∈ outstandingTickets flying.fen := by
  decide +kernel

/-! ### Witnesses: drops, sets and masks -/

theorem witness_DropRequests :
    (answers (.dropAttach 7 0 3 16) [0x21] loaded && answers (.dropDetach 7 25) [0x21] loaded
      && answers (.dropRead 7 0) [0x21] loaded && answers (.dropClearService 7 25) [0x21] loaded
      && answers (.dropAttach 7 1 3 16) [4] loaded && answers (.dropAttach 7 24 0 16) [0x21] loaded
      && answers (.dropAttach 7 24 16 16) [0x21] loaded && answers (.dropAttach 7 24 15 0) [0x21] loaded
      && answers (.dropAttach 7 24 15 255) [0] loaded && answers (.dropAttach 7 24 1 1) [0] loaded
      && answers (.dropDetach 7 1) [0, 2] loaded
      && answers (.dropRead 7 1) [0, 1, 2, 3, 16, 0, 0, 1, 1, 8, 0, 0, 0, 24] loaded
      && answers (.dropClearService 7 1) [0, 0] loaded) = true := by decide +kernel

/-- A sample of entry 0 with one value. -/
def sample (v : Word) : Sample := { entry := 0, frame := 0x0102, fault := false, service := true, values := [v] }

/-- Set 0 in BLOCK with three samples, set 15 in LATEST with four. -/
def sampled : State :=
  loaded.setRst { sets := (tput
    (tput loaded.rst.sets 0 { SetRec.initial with
      mode := .block, fill := 3, slots := #v[some (sample 1), some (sample 2), some (sample 3), none] }) 15
    { SetRec.initial with
      mode := .latest, latest := 4, newest := 1,
      slots := #v[some (sample 1), some (sample 2), some (sample 3), some (sample 4)] }) }

theorem witness_ResultSetRequests :
    (answers (.setConfig 7 16 1 1) [0x21] sampled && answers (.setConfig 7 0 3 1) [0x21] sampled
      && answers (.setConfig 7 0 1 0) [0x21] sampled && answers (.setConfig 7 0 1 9) [0x21] sampled
      && answers (.setConfig 7 0 1 2) [0x23] sampled && answers (.setConfig 7 0 2 1) [0, 3] sampled
      && answers (.setConfig 7 15 0 8) [0, 4] sampled && answers (.setRead 7 16) [0x21] sampled
      && answers (.setRead 7 1) [0, 1, 0, 1, 0, 0, 0, 0] sampled
      && answers (.setRead 7 0)
        [0, 0, 1, 1, 0, 0, 0, 3, 0, 2, 1, 2, 1, 0, 0, 2, 1, 2, 2, 0, 0, 2, 1, 2, 3, 0] sampled
      && answers (.setRead 7 15)
        [0, 15, 2, 1, 0, 0, 0, 4, 0, 2, 1, 2, 2, 0, 0, 2, 1, 2, 1, 0, 0, 2, 1, 2, 4, 0, 0, 2, 1, 2, 3, 0] sampled)
      = true := by decide +kernel

theorem witness_EventMaskSetsTheMasks :
    (answers (.eventMask 7 2 0 0) [0x21] loaded && answers (.eventMask 7 0 2 0) [0x21] loaded
      && answers (.eventMask 7 0 0 2) [0x21] loaded && answers (.eventMask 7 1 0 1) [0, 1, 0, 1, 0] loaded
      && answers (.eventMask 7 0 1 0) [0, 0, 1, 0, 1]
        (loaded.setRep { loaded.rep with serviceLatches := tput loaded.rep.serviceLatches 23 true })) = true := by
  decide +kernel

/-- An open session with nothing masked, and `n` reports queued. -/
def reporting (n : Nat) : State :=
  opened.setRep { opened.rep with
    queue := List.replicate n { seq := 0, report := .service 0 }, maskDrop := .unmasked, maskService := .unmasked,
    maskFrame := .unmasked }

/-- A change of the engine and one of a drop, and a FRAME-EVENT. -/
def engineChange : EngineChange := { new := .running, left := .stopped, cause := .host, frame := 1 }
def dropChange : DropChange := { left := .seeking, entered := .online, kind := .arrived }
def skips (n : Nat) : FrameSummary := { slot := 0, frame := 1, skipped := n, jams := 0, frames := 1 }

theorem witness_EventMaskSetsTheMasks_admission :
    ((reporting 31).admits = true ∧ (reporting 32).admits = false ∧ State.reset.admits = false)
    ∧ ((offerEngine engineChange (reporting 31)).rep.queue.length = 32
      ∧ (offerEngine engineChange (reporting 32)).rep.engineLatch.map EngineLatch.count = some 1
      ∧ (offerEngine engineChange ((reporting 0).setRep { (reporting 0).rep with
          engineLatch := some { change := engineChange, count := 255 } })).rep.engineLatch.map EngineLatch.count
          = some 255)
    ∧ ((offerDrop 23 dropChange (reporting 31)).rep.queue.length = 32
      ∧ (tget (offerDrop 23 dropChange opened).rep.dropLatches 23).map DropLatch.count = some 1
      ∧ (tget (offerDrop 23 dropChange (offerDrop 23 dropChange (reporting 32))).rep.dropLatches 23).map
          DropLatch.count = some 2)
    ∧ ((offerService 0 (reporting 31)).rep.queue.length = 32
      ∧ tget (offerService 0 (reporting 32)).rep.serviceLatches 0 = true
      ∧ tget (offerService 0 opened).rep.serviceLatches 0 = true)
    ∧ ((offerFrame (skips 1) (reporting 31)).rep.queue.length = 32
      ∧ (offerFrame (skips 1) opened).rep.frameLatch = some (skips 1)
      ∧ (offerFrame (skips 65535) (offerFrame (skips 1) opened)).rep.frameLatch.map FrameSummary.skipped
          = some 65535) := by decide +kernel

theorem witness_EventMaskSetsTheMasks_offering :
    (let p := (offerFrame (skips 1) (offerService 23 (offerService 0 opened))).rep;
    let ids := latchOrder true true true true;
    (offering true 0 ids p).2 = 3
      ∧ (offering true 0 ids p).1.queue.map Queued.report = [.service 0, .service 23, .frameEvent (skips 1)]
      ∧ (offering true 31 ids p).2 = 1 ∧ tget (offering true 31 ids p).1.serviceLatches 23 = true
      ∧ (offering false 0 ids p).2 = 0) := by decide +kernel

/-! ### Witnesses: boundaries and the wake pulse -/

theorem witness_FrameStartBeginsAFrame :
    walking.fen.item ≠ none
    ∧ (between.fen.timer.isSome = true ∧ between.fen.item = none ∧ between.btx.state = .idle
      ∧ between.btx.waiting = [] ∧ between.fen.engine = .running ∧ between.fen.quietPending = false
      ∧ isSchedLen between.scm.schedLen = true)
    ∧ (after (.frameStart []) between).btx.state = .broadcast (handed (.beacon false 0))
    ∧ ((after (.frameStart (highs 31 ++ [.low])) between).fen.jamCount = 1
      ∧ (after (.frameStart ([.low] ++ highs 31)) between).fen.jamCount = 1
      ∧ (after (.frameStart ([.low] ++ highs 32)) between).fen.jamCount = 0
      ∧ (after (.frameStart (highs 31)) (between.setBtx { between.btx with heard := [.low] })).fen.jamCount = 1
      ∧ (after (.frameStart []) (between.setBtx { between.btx with jamRecord := 1 <<< 63 })).fen.jamCount = 1
      ∧ (after (.frameStart []) (between.setBtx { between.btx with jamRecord := 1 <<< 64 })).fen.jamCount = 0)
    ∧ (after (.frameStart [.low]) (between.setFen { between.fen with jamCount := 1 })).fen.engine = .running
    ∧ (after (.frameStart [.low]) (between.setFen { between.fen with jamCount := 2 })).fen.engine = .stopped := by
  decide +kernel

/-- STOPPED at a new rate with a START that waits for the end of a broadcast of the old one, one bit-time of which is
8 of the other, or the other way about (R68). -/
def startingAt (old new : BusRate) : State :=
  (onBus (.gap (.broadcast { what := .quiet, rate := old })) loaded).setFen { loaded.fen with
    engine := .running, startPending := true, config := { loaded.fen.config with rate := new } }

theorem test_old_low_is_out_of_the_record :
    (after (.broadcastGapEnd (highs 27 ++ [.low] ++ highs 4)) (startingAt .k250 .m2)).fen.jamCount = 0
    ∧ (after (.broadcastGapEnd (highs 27 ++ lows 2)) (startingAt .k250 .m2)).fen.jamCount = 1
    ∧ (after (.broadcastGapEnd []) ((startingAt .m2 .k250).setBtx
        { (startingAt .m2 .k250).btx with jamRecord := 1 <<< 223 })).fen.jamCount = 1
    ∧ (after (.broadcastGapEnd []) ((startingAt .m2 .k250).setBtx
        { (startingAt .m2 .k250).btx with jamRecord := 1 <<< 224 })).fen.jamCount = 0 := by decide +kernel

theorem test_line_at_another_rate :
    reTick .m1 .m2 [.low, .high] = [.low, .low, .high, .high]
    ∧ reTick .m2 .k500 ([.low] ++ highs 4 ++ [.low]) = [.low, .low]
    ∧ (after (.broadcastGapEnd (highs 32 ++ [.low]))
        (onBus (.gap (.broadcast { what := .quiet, rate := .k500 })) loaded)).btx.heard = [.low, .low]
    ∧ (let s := loaded.setBtx { loaded.btx with heard := [.high, .low] };
      (after (.busConfig 7 3 8 64 4) (ask .busConfig [3, 8, 64, 4] s)).btx.heard
        = [.high, .high, .low, .low]) := by decide +kernel

theorem witness_QuietAndSettlingBoundaries :
    (let s := between.setFen { between.fen with quietPending := true };
      s.fen.timer.isSome = true ∧ s.fen.item = none ∧ s.btx.state = .idle ∧ s.btx.waiting = []
        ∧ s.fen.engine = .running ∧ s.fen.quietPending = true ∧ s.fen.judgeDue = false
        ∧ (after .quietBoundary s).btx.state = .broadcast (handed .quiet))
    ∧ (let s := (inEngine .waking).setFen { (inEngine .waking).fen with settling := 1 };
      s.fen.engine = .waking ∧ 0 < s.fen.settling
        ∧ (after (.settlingBoundary []) s).btx.state = .broadcast (handed (.beacon true 0)))
    ∧ ((inEngine .waking).fen.settling = 0 ∧ (inEngine .waking).fen.timer.isSome = true
      ∧ (after (.settlingBoundary []) (inEngine .waking)).fen.frame = 1) := by decide +kernel

/-- QUIET with the wake monitor watching and a low of 10 bit-times measured. -/
def listening : State :=
  (inEngine .quiet).setFen { (inEngine .quiet).fen with timer := none, watching := true, lowMeasure := 40 }

theorem witness_WakePulseWakesTheEngine :
    ((inEngine .quiet).fen.watching = false ∧ listening.fen.watching = true ∧ listening.fen.engine = .quiet)
    ∧ (after (.wakePulse (lows 23)) listening).fen.lowMeasure = 63
    ∧ (after (.wakePulse (lows 5 ++ [.high] ++ lows 63)) listening).fen.lowMeasure = 63
    ∧ (after (.wakePulse (lows 5 ++ [.high])) listening).fen.lowMeasure = 0
    ∧ ((after (.wakePulse (lows 24)) listening).fen.engine = .waking ∧ listening.btx.state = .idle)
    ∧ (after (.wakePulse ([.high] ++ lows 64 ++ [.high])) listening).fen.engine = .waking := by decide +kernel

/-! ### Witnesses: the drop bus -/

theorem witness_BroadcastsEndAndTheFrameGoesOn :
    (broadcasting.btx.state = .broadcast (handed .quiet)
      ∧ (after .broadcastFrameEnd broadcasting).btx.dbde = false
      ∧ (busBytes broadcasting.btx).take 4 = [0x5A, 0, 0x09, 0]
      ∧ busBytes (after .broadcastFrameEnd broadcasting).btx = []
      ∧ (broadcastFrame (.beacon true 300)).take 4 = [0x5A, 0, 0x08, 0xAC])
    ∧ (let s := (onBus (.gap (.broadcast (handed .quiet))) loaded);
      s.btx.state = .gap (.broadcast (handed .quiet)) ∧ s.fen.engine = .stopped
      ∧ (after (.broadcastGapEnd []) s).btx.state = .idle
      ∧ (after (.broadcastGapEnd (highs 31 ++ [.low])) s).btx.jamRecord = 3
      ∧ (after (.broadcastGapEnd (highs 32 ++ [.low])) s).btx.heard = [.low])
    ∧ (let s := (onBus (.gap (.broadcast (handed .quiet))) (inEngine .waking)).setFen
          { (inEngine .waking).fen with timer := none };
      let waits := fun l : List Handed => after (.broadcastGapEnd []) (s.setBtx { s.btx with waiting := l });
      (waits [handed .resume]).btx.state = .broadcast (handed .resume) ∧ (waits [handed .resume]).fen.timer = some 0
        ∧ (waits [handed .resume, handed .quiet]).fen.timer = none
        ∧ (waits [handed .resume, handed .quiet]).btx.waiting = [handed .quiet])
    ∧ (let s := onBus (.gap (.broadcast (handed .quiet))) (inEngine .quiet);
      s.fen.engine = .quiet ∧ s.fen.resetPending = false ∧ (after (.broadcastGapEnd []) s).fen.watching = true)
    ∧ (let s := onBus (.gap (.broadcast (handed .quiet)))
          (between.setFen { between.fen with startPending := true, timer := none });
      s.fen.startPending = true ∧ s.fen.quietPending = false ∧ (after (.broadcastGapEnd []) s).fen.frame = 0
        ∧ (after (.broadcastGapEnd []) (s.setFen { s.fen with quietPending := true })).fen.engine = .quiet)
    ∧ (after (.broadcastGapEnd []) (onBus (.gap (.broadcast (handed .resume))) (inEngine .waking))).btx.state = .idle
    ∧ (let s := onBus (.gap (.broadcast (handed (.beacon false 0))))
          (between.setFen { between.fen with
            stage := .beacon, timer := some 240, plan := [{ index := 0, gen := 3 }] });
      s.fen.stage = .beacon ∧ s.fen.startPending = false ∧ (after (.broadcastGapEnd []) s).btx.state = .request) := by
  decide +kernel

theorem witness_RequestIsSentAndTheAnswerAwaited :
    (walking.btx.state = .request ∧ walking.btx.capture = some (captureOf readTrans [])
      ∧ (after .requestFrameEnd walking).fen.timer = some 592
      ∧ (busBytes walking.btx).take 6 = [0x5A, 1, 0x01, 0, 2, 0] ∧ (busBytes walking.btx).length = 8)
    ∧ (let s := onBus .wait walking;
      s.btx.state = .wait
      ∧ (after (.answerStartBit (highs 96 ++ lows 3)) s).btx.rx.startAt = some 96
      ∧ after (.answerDeadline (highs 96 ++ lows 3)) s = s
      ∧ (after (.answerStartBit (lows 3)) s).btx.rx.startAt = some 0
      ∧ (after (.answerStartBit (lows 2 ++ highs 1 ++ lows 3)) s).btx.rx.startAt = some 3
      ∧ after (.answerStartBit (highs 97 ++ lows 3)) s = s
      ∧ (after (.answerDeadline (highs 97 ++ lows 3)) s).btx.state = .gap (.attempt (.error .noAnswer))
      ∧ (after (.answerDeadline (lows 2)) s).btx.state = .gap (.attempt (.error .noAnswer)))
    ∧ walking.btx.state ≠ .wait := by decide +kernel

/-- A conforming answer, sent back to back. -/
def answerLine (addr status : Byte) (values : List Word) : List Level := frameLine (answerFrame addr status values)

theorem witness_AnswerIsJudged :
    (let s := onBus .answer walking;
      s.btx.state = .answer ∧ s.btx.capture = some (captureOf readTrans [])
      ∧ ([0x1234, 0x5678] : List Word).length = (captureOf readTrans []).inCount
      ∧ (1 : Byte) = dropByte (captureOf readTrans []).drop ∧ (2 : Byte) ≠ dropByte (captureOf readTrans []).drop
      ∧ (after (.answerEnd (answerLine 1 3 [0x1234, 0x5678])) s).btx.state
          = .gap (.attempt (.valid true true [0x1234, 0x5678]))
      ∧ (after (.answerEnd (answerLine 2 0 [0x1234, 0x5678] ++ [.high])) s).btx.state
          = .gap (.attempt (.error .wrongDrop))
      ∧ (after (.answerEnd (answerLine 1 0 [0x1234, 0x5678] ++ [.low])) s).btx.state
          = .gap (.attempt (.error .badLength)))
    ∧ (takeAnswer 16 (answerLine 1 0 (List.replicate 16 7))).endAt = 1480 := by decide +kernel

/-- How an answer of one byte 0x55, or of two, to a request for no value ends: by the idle end, also exactly at the
limit of 200 ticks; by an overrun; held low; after a low that goes on past a stop bit; and past a short low. -/
theorem witness_AnswerIsJudged_ends :
    (let c := characterLine 0x55 false;
    let five := c ++ c ++ c ++ c;
    takeAnswer 0 (c ++ highs 8 ++ c) = { bytes := [(0x55, false)], overran := false, endAt := 40 }
      ∧ takeAnswer 0 (lows 40 ++ highs 8) = { bytes := [(0, true)], overran := false, endAt := 40 }
      ∧ (takeAnswer 0 (five ++ highs 32 ++ lows 8)).endAt = 160
      ∧ takeAnswer 0 (c ++ c ++ c ++ highs 7 ++ c ++ highs 7 ++ c)
          = { bytes := List.replicate 4 (0x55, false), overran := true, endAt := 200 }
      ∧ (takeAnswer 0 (five ++ c ++ [.high])).overran = false
      ∧ takeAnswer 0 (five ++ c ++ [.low])
          = { bytes := List.replicate 5 (0x55, false), overran := true, endAt := 200 }
      ∧ takeAnswer 0 (c ++ characterLine 0x55 true ++ lows 121)
          = { bytes := [(0x55, false), (0x55, true)], overran := true, endAt := 200 }
      ∧ takeAnswer 0 (c ++ characterLine 0x55 true ++ lows 20 ++ highs 1 ++ c ++ highs 8)
          = { bytes := [(0x55, false), (0x55, true), (0x55, false)], overran := false, endAt := 141 }
      ∧ takeAnswer 0 (c ++ characterLine 0x55 true ++ lows 60 ++ highs 8)
          = { bytes := [(0x55, false), (0x55, true)], overran := false, endAt := 80 }
      ∧ takeAnswer 0 (c ++ highs 5 ++ lows 2 ++ highs 1) = takeAnswer 0 (c ++ highs 8)) := by decide +kernel

/-- Bytes received with good stop bits. -/
def taken (bytes : List Byte) : Taken :=
  { bytes := bytes.map fun b => (b, false), overran := false, endAt := 0 }

theorem witness_JudgementTestsInOrder :
    (let c := captureOf { readTrans with inCount := 1 } [];
      judgeAnswer c { taken [] with overran := true } = .error .badLength
      ∧ judgeAnswer c (taken [1, 0, 0, 0]) = .error .badLength
      ∧ judgeAnswer c { taken [] with bytes := List.replicate 5 (0, true) } = .error .badCheck
      ∧ judgeAnswer c (taken [1, 0, 0, 0, 1]) = .error .badCheck
      ∧ judgeAnswer c (taken (answerFrame 2 0 [7])) = .error .wrongDrop
      ∧ judgeAnswer c (taken ([1, 0, 2, 0, 7] ++ busWord (busCheck [1, 0, 2, 0, 7]))) = .error .badLength
      ∧ judgeAnswer c (taken (answerFrame 1 0 [])) = .error .badLength
      ∧ judgeAnswer c (taken (answerFrame 1 0 [7])) = .valid false false [7]) := by decide +kernel

/-- The closing gap of an attempt of entry 0 with this result. -/
def ending (r : AttemptResult) : State := onBus (.gap (.attempt r)) walking

/-- The same with another item and time. -/
def endingAt (r : AttemptResult) (it : Item) (now : Nat) : State :=
  (ending r).setFen { walking.fen with item := some it, timer := some now, stage := .adHoc }

theorem witness_AttemptEndDecidesTheRetry :
    (let s := ending (.error .noAnswer);
      s.btx.state = .gap (.attempt (.error .noAnswer)) ∧ s.fen.item = some item
      ∧ s.btx.capture = some (captureOf readTrans []) ∧ s.fen.timer = some 272
      ∧ ¬ item.retries + 1 ≤ item.attempts
      ∧ (after (.attemptEnd [] false) s).fen.item.map Item.attempts = some 2)
    ∧ (let s := (ending (.error .noAnswer)).setFen { walking.fen with timer := some 2904 };
      4 * (162 + 20 * (0 + 2)) + (2904 + 4 * 8) = 4 * s.fen.config.guardStart
      ∧ (after (.attemptEnd [] false) s).fen.item.map Item.attempts = some 2)
    ∧ (let s := (ending (.error .noAnswer)).setFen { walking.fen with timer := some 2905 };
      ((tget (after (.attemptEnd [] false) s).scm.entries 0).body.map EntryBody.failed) = some 1)
    ∧ (let s := after (.attemptEnd [] false) (ending (.valid true false [8, 9]));
      (tget s.scm.entries 0).body.map EntryBody.last = some .dropFault
        ∧ s.fen.item.map Item.source = some (.adHoc 1 true))
    ∧ (let flown := { item with source := .adHoc 9 true, attempts := 2, lastError := some AttemptError.badCheck };
      let t := after (.attemptEnd [] false) (endingAt (.error .noAnswer) flown 2905);
      t.fen.item = none ∧ t.rep.queue.getLast?.map Queued.report = some (.ticketDone
          { ticket := 9, outcome := .failed, lastError := some .noAnswer, attempts := 2, frame := 1, flags := none,
            values := [] })
        ∧ (after (.attemptEnd [] false) (endingAt (.valid true false [8]) flown 3744)).rep.queue.getLast?.map Queued.report
          = some (.ticketDone
              { ticket := 9, outcome := .dropFault, lastError := some .badCheck, attempts := 2, frame := 1,
                flags := some (true, false), values := [8] })
        ∧ (after (.attemptEnd [] false) (endingAt (.valid true false [8])
            { flown with source := .adHoc 9 false } 3744)).rep.queue.length = 1)
    ∧ (let probe : Item := { source := .probe, retries := 0, attempts := 1, lastError := none };
      let s := endingAt (.valid false false [2, 8]) probe 3744;
      (after (.attemptEnd [] false) (s.setDrm { s.drm with
        drops := tput s.drm.drops 1 { DropRec.initial with state := .seeking },
        probe := some { drop := 1, live := true } })).drm.probe = none)
    ∧ (let s := ending (.valid false false [8, 9]);
      let h := s.setFen { s.fen with engine := .halting };
      (after (.attemptEnd [] false) h).fen.engine = .stopped
        ∧ (after (.attemptEnd [] false) (h.setFen { h.fen with quietPending := true })).fen.engine = .quiet) := by
  decide +kernel

/-- The item of the last pair in `walking` has ended, after one skip, and the judgement that follows it is due. -/
def due : State :=
  let s := ending (.valid true false [8, 9])
  after (.attemptEnd [] true) (s.setFen { s.fen with skipCount := 1 })

/-- The same with a stale pair of the plan still to be judged. -/
def dueMidway : State :=
  let s := ending (.valid true false [8, 9])
  after (.attemptEnd [] true)
    (s.setFen { s.fen with skipCount := 1, plan := s.fen.plan ++ [{ index := 5, gen := 0 }] })

theorem witness_AttemptEndDecidesTheRetry_held :
    (due.btx.state = .idle ∧ due.fen.item = none ∧ due.fen.judgeDue = true ∧ due.fen.engine = .running
      ∧ due.fen.stage = .periodicEnded ∧ due.fen.quietPending = false
      ∧ dueMidway.fen.stage = .periodic ∧ dueMidway.fen.judgeDue = true)
    ∧ ((let s := ending (.valid true false [8, 9]);
        after (.attemptEnd [] false) due = after (.attemptEnd [] false) (s.setFen { s.fen with skipCount := 1 }))
      ∧ due.rep.frameLatch.map FrameSummary.skipped = some 1 ∧ dueMidway.rep.frameLatch = none
      ∧ (after (.resetEngine 7 0 []) (ask .reset [0] due)).rep.frameLatch = due.rep.frameLatch
      ∧ (after (.attemptEnd [] false) dueMidway).rep.frameLatch = due.rep.frameLatch
      ∧ after (.attemptEnd [] true) due = due ∧ after (.frameStart []) due = due)
    ∧ ((after (.attemptEnd [] false) (due.setFen { due.fen with stage := .probe })).fen.item.map Item.source
          = some (.adHoc 1 true))
    ∧ (mayTake .halt 7 [] (ask .halt [] due) = true
      ∧ (after (.halt 7) (ask .halt [] due)).fen.engine = .stopped
      ∧ (after (.halt 7) (ask .halt [] due)).fen.queue.length = 1) := by decide +kernel

theorem witness_PeriodicOutcomeIsRecorded :
    (tget walking.scm.entries 0).body = some readBody ∧ (tget walking.scm.entries 0).gen = 3
    ∧ (tget walking.scm.entries 1).body = none
    ∧ (recordPeriodic { index := 1, gen := 3 } 0 (.error .noAnswer) walking).scm = walking.scm
    ∧ tget (tget (recordPeriodic { index := 0, gen := 3 } 0 (.valid true false [8, 9]) walking).rst.sets 0).slots 0
        = some { entry := 0, frame := 1, fault := true, service := false, values := [9] }
    ∧ (recordPeriodic { index := 0, gen := 3 } 0 (.valid true false [8]) walking).rst = walking.rst
    ∧ (recordPeriodic { index := 0, gen := 3 } 0 (.error .badCheck) walking).rst = walking.rst := by decide +kernel

/-- RUNNING at the probe stage with drops 2 SEEKING and 24 due, the cursor at drop 3, and this much of the frame used. -/
def probing (now : Nat) : State :=
  (between.setFen { between.fen with stage := .periodic, timer := some now }).setDrm { between.drm with
    cursor := 2,
    drops := tput (tput between.drm.drops 1 { DropRec.initial with state := .seeking }) 23
      { DropRec.initial with state := .quarantined, failures := 3, identity := some { kind := 1, points := 8 } } }

theorem witness_ItemsAreJudged :
    (let s := between.setFen { between.fen with timer := some 2936 };
      let p : PlanPair := { index := 0, gen := 3 };
      (tget s.scm.entries 0).body = some readBody ∧ (tget s.drm.drops 0).state = .online
      ∧ remaining s.fen = 202 ∧ (walkPeriodic [p] s).btx.state = .request
      ∧ (walkPeriodic [{ p with gen := 2 }] s).btx.state = .idle
      ∧ (walkPeriodic [p] (s.setFen { s.fen with timer := some 2937 })).fen.skipCount = 1
      ∧ (tget (walkPeriodic [p] (s.setDrm Drm.initial)).scm.entries 0).body.map EntryBody.notReady = some 1)
    ∧ (let s := tailed.setFen { tailed.fen with timer := some 2936 };
      let h : AdHoc := { ticket := 1, trans := readTrans, outputs := [], force := false };
      0 < remaining s.fen ∧ (serveAdHoc [h] s).btx.state = .request
      ∧ serveAdHoc [h] (s.setFen { s.fen with timer := some 2937 }) = s.setFen { s.fen with timer := some 2937 }
      ∧ (serveAdHoc [h] (s.setDrm Drm.initial)).rep.queue.length = 1
      ∧ (serveAdHoc [{ h with force := true }] (s.setDrm Drm.initial)).btx.state = .request
      ∧ (let at_tick := fun n : Nat => (s.setDrm Drm.initial).setFen { s.fen with timer := some n };
        4 * s.fen.config.guardStart = 3744 ∧ (serveAdHoc [h] (at_tick 3743)).rep.queue.length = 1
        ∧ serveAdHoc [h] (at_tick 3744) = at_tick 3744))
    ∧ ((walkPeriodic [] (between.setFen { between.fen with skipCount := 1 })).rep.frameLatch = some
          { slot := between.fen.slot, frame := 65535, skipped := 1, jams := 0, frames := 1 }
      ∧ (walkPeriodic [] between).rep.frameLatch = none)
    ∧ (remaining (probing 2936).fen = 202
      ∧ (probeStage (probing 2936)).btx.capture.map Capture.drop = some 23
      ∧ (probeStage (probing 2936)).drm.cursor = 23
      ∧ (probeStage (probing 2937)).drm = (probing 2937).drm
      ∧ (let s := (probing 2936).setDrm { (probing 2936).drm with cursor := 23 };
        (probeStage s).drm.cursor = 1)
      ∧ (probeStage (between.setFen { between.fen with stage := .periodic })).fen.stage = .adHoc) := by decide +kernel

/-- A drop record in this state with threshold 1 or more. -/
def drop (st : DropState) (threshold failures : Nat) : DropRec :=
  { DropRec.initial with
    state := st, threshold := threshold, failures := failures, identity := some { kind := 1, points := 8 } }

theorem witness_DropRecordsMove :
    dropItem true (drop .seeking 3 0) = (drop .seeking 3 0, none)
    ∧ dropItem true (drop .failing 3 2) = (drop .online 3 0, none)
    ∧ (dropItem false (drop .online 2 0)).1.state = .failing ∧ (dropItem false (drop .online 1 0)).1.state = .quarantined
    ∧ (dropItem false (drop .failing 3 1)).1.state = .failing
    ∧ (dropItem false (drop .failing 3 2)).1.state = .quarantined
    ∧ (dropProbe (some { kind := 2, points := 1 }) (drop .seeking 3 0)).1.state = .online
    ∧ (dropProbe none (drop .quarantined 3 3)).1.due = 16
    ∧ (dropProbe (some { kind := 1, points := 1 }) (drop .quarantined 3 3)).2.map DropChange.kind = some .readmitted
    ∧ (dropProbe (some { kind := 2, points := 1 }) (drop .quarantined 3 3)).2.map DropChange.kind = some .replaced
    ∧ dropProbe (some { kind := 2, points := 1 }) (drop .failing 3 2) = (drop .failing 3 2, none)
    ∧ (goodProbe (.valid true false [0x0102, 0]) = none ∧ goodProbe (.valid true false [0x0102, 65]) = none
      ∧ goodProbe (.valid true false [0x0102, 1]) = some { kind := 2, points := 1 }
      ∧ goodProbe (.valid true false [0x0102, 64]) = some { kind := 2, points := 64 }
      ∧ goodProbe (.error .noAnswer) = none) := by decide +kernel

theorem witness_DropRecordsMove_state :
    (let s := fun live : Bool => loaded.setDrm { loaded.drm with
        drops := tput loaded.drm.drops 1 (drop .quarantined 3 3), probe := some { drop := 1, live := live } };
    (tget (probeOutcome (.valid false false [1, 8]) (s true)).drm.drops 1).state = .online
      ∧ (tget (probeOutcome (.valid false false [1, 8]) (s true)).rep.dropLatches 1).map DropLatch.count = some 1
      ∧ (tget (probeOutcome (.error .noAnswer) (s true)).drm.drops 1).due = 16
      ∧ (probeOutcome (.valid false false [1, 8]) (s false)).drm = { (s false).drm with probe := none }
      ∧ (probeOutcome (.valid false false [1, 8]) loaded).drm = loaded.drm)
    ∧ ((tget (dropOutcome 0 false loaded).drm.drops 0).state = .failing
      ∧ (dropOutcome 0 false loaded).rep = loaded.rep
      ∧ (tget (dropOutcome 0 false (loaded.setDrm { loaded.drm with
          drops := tput loaded.drm.drops 0 (drop .failing 3 2) })).rep.dropLatches 0).map DropLatch.count = some 1)
    ∧ (serviceHandover 0 false loaded = loaded ∧ serviceHandover 1 true loaded = loaded
      ∧ tget (serviceHandover 0 true loaded).rep.serviceLatches 0 = true
      ∧ serviceHandover 0 true (serviceHandover 0 true loaded) = serviceHandover 0 true loaded) := by decide +kernel

theorem witness_DepositFollowsTheMode :
    (tget sampled.rst.sets 1).mode = .off ∧ deposit 1 (sample 9) sampled = sampled
    ∧ (tget loaded.rst.sets 0).mode = .block ∧ (tget loaded.rst.sets 0).fill = 0
    ∧ (tget (deposit 0 (sample 9) loaded).rst.sets 0).fill = 1
    ∧ (tget sampled.rst.sets 0).fill = 3 ∧ tget (tget sampled.rst.sets 0).slots 2 = some (sample 3)
    ∧ (deposit 0 (sample 9) sampled).rep.queue.length = 1
    ∧ (tget (deposit 0 (sample 9) (sampled.setLink Link.initial)).rst.sets 0).lost = 1
    ∧ (tget sampled.rst.sets 15).mode = .latest ∧ (tget (deposit 15 (sample 9) sampled).rst.sets 15).newest = 2
    ∧ (let s := sampled.setRst { sets := tput sampled.rst.sets 15 { SetRec.initial with mode := .latest } };
      (tget s.rst.sets 15).latest = 0 ∧ (tget (deposit 15 (sample 9) s).rst.sets 15).latest = 1) := by decide +kernel

/-! ### Witnesses: the transmit line and the end of a session -/

/-- A reply on LTX. -/
def sending (r : OutReply) (s : State) : State := s.setLink { s.link with ltx := .reply r }

/-- The reply of a request of tag 7. -/
def haltReply : OutReply := { kind := 0xA2, tag := 7, payload := [0], check := 0x1234, origin := .request }

/-- `walking` with a second report that has not been sent. -/
def twoReports : State :=
  walking.setRep { walking.rep with queue := walking.rep.queue ++ [{ seq := 1, report := .service 1 }], nextSeq := 2 }

theorem witness_TransmitLine :
    ((sending haltReply walking).link.ltx ≠ .idle)
    ∧ (let s := walking.setLink { walking.link with outbox := [haltReply] };
      s.link.ltx = .idle ∧ (after .txFrameStart s).link.ltx = .reply haltReply
      ∧ (ltxBytes (.reply haltReply)).take 5 = [0xC3, 1, haltReply.kind, haltReply.tag, 0])
    ∧ (ltxBytes (.report { seq := 9, report := .service 2 } true)).take 5 = [0xC3, 1, 0x45, 9, 3]
    ∧ (twoReports.link.outbox = [] ∧ twoReports.link.session.state = .opened
      ∧ twoReports.link.send.position = twoReports.link.send.unacked
      ∧ (after .txFrameStart twoReports).link.send.unacked = 2)
    ∧ (let s := twoReports.setLink { twoReports.link with
          send := { twoReports.link.send with position := 0 } };
      s.link.send.position < s.link.send.unacked ∧ (after .txFrameStart s).link.send.unacked = 1)
    ∧ (walking.rep.queue.length ≤ walking.link.send.position ∧ after .txFrameStart walking = walking)
    ∧ (let s := sending haltReply (ask .halt [] walking);
      s.link.ltx = .reply haltReply ∧ (after .replySent s).link.memory = [haltReply]
      ∧ (after .replySent s).link.places = [])
    ∧ (let s := sending { haltReply with origin := .short } walking;
      (after .replySent s).link.ltx = .idle ∧ (after .replySent s).link.memory = []) := by decide +kernel

theorem witness_ReportsAreSentAndSentAgain :
    (let s := walking.setLink { walking.link with
          ltx := .report { seq := 0, report := .service 0 } true,
          send := { walking.link.send with position := 0 } };
      (after .reportFrameSent s).link.send.position = 1)
    ∧ (loaded.link.send.timer = none ∧ after .resendTimeout loaded = loaded)
    ∧ (walking.link.send.timer.isSome = true ∧ (after .resendTimeout walking).link.send.resends = 1)
    ∧ (let s := walking.setLink { walking.link with send := { walking.link.send with resends := 2 } };
      s.link.send.timer.isSome = true ∧ (after .resendTimeout s).link.send.path = .stalled) := by decide +kernel

/-- The same session with link-loss action HALT. -/
def halting (s : State) : State :=
  s.setLink { s.link with session := { s.link.session with action := .halt } }

/-- The OK reply of a CLOSE. -/
def closeReply : OutReply := { kind := 0x82, tag := 7, payload := [0], check := 0x1234, origin := .request }

theorem witness_SessionEnds :
    (walking.link.session.silence.isSome = true ∧ walking.link.session.action = .continue_
      ∧ (after .silenceTimeout walking).link.session.state = .closed)
    ∧ (let s := sending closeReply (walking.setLink { walking.link with
          session := { walking.link.session with state := .closing } });
      s.link.session.state = .closing ∧ s.link.ltx = .reply closeReply
      ∧ (after .replySent s).link.session.endCause = .close)
    ∧ ((halting loaded).link.session.action = .halt ∧ (after .silenceTimeout (halting loaded)).fen.engine = .stopped)
    ∧ (after .silenceTimeout (halting (inEngine .halting))).fen.haltCause = .linkLoss
    ∧ ((halting walking).fen.item.isSome = true ∧ (halting walking).fen.resetPending = false
      ∧ (after .silenceTimeout (halting walking)).fen.engine = .halting)
    ∧ ((halting between).fen.item = none ∧ (after .silenceTimeout (halting between)).fen.engine = .stopped
      ∧ (after .silenceTimeout (halting (between.setFen { between.fen with quietPending := true }))).fen.engine = .quiet)
    ∧ ((inEngine .waking).fen.stage ≠ .periodic
      ∧ (after .silenceTimeout (halting (inEngine .waking))).fen.engine = .stopped) := by decide +kernel

/-! ### Witnesses: the invariants -/

/-- `walking` with a command in its queue. -/
def stepping : State := { walking with pending := [.requestFrameEnd] }

theorem test_stepping_completes : ∃ t : State, step stepping = .next t := ⟨_, rfl⟩

theorem witness_StepKeepsTheSchedule : ScheduleInv stepping.scm ∧ ∃ t : State, step stepping = .next t := by
  refine ⟨?_, test_stepping_completes⟩
  unfold ScheduleInv
  decide +kernel

theorem witness_StepKeepsRoutesAndSets :
    RouteInv stepping ∧ SetInv stepping.rst ∧ SetInv sampled.rst ∧ ∃ t : State, step stepping = .next t := by
  refine ⟨?_, ?_, ?_, test_stepping_completes⟩
  · unfold RouteInv; decide +kernel
  · unfold SetInv; decide +kernel
  · unfold SetInv; decide +kernel

theorem witness_StepKeepsTicketPlaces : TicketInv stepping ∧ ∃ t : State, step stepping = .next t := by
  refine ⟨?_, test_stepping_completes⟩
  unfold TicketInv
  decide +kernel

theorem witness_StepKeepsTheBudget :
    BudgetInv stepping ∧ DriverInv stepping.btx ∧ ∃ t : State, step stepping = .next t := by
  refine ⟨?_, ?_, test_stepping_completes⟩
  · unfold BudgetInv; decide +kernel
  · unfold DriverInv; decide +kernel

theorem witness_StepKeepsDropRecords : DropInv stepping.drm ∧ ∃ t : State, step stepping = .next t := by
  refine ⟨?_, test_stepping_completes⟩
  unfold DropInv
  decide +kernel

theorem witness_StepKeepsTheSendState : SendInv stepping ∧ ∃ t : State, step stepping = .next t := by
  refine ⟨?_, test_stepping_completes⟩
  unfold SendInv
  decide +kernel

theorem witness_StepKeepsTheSessionRules :
    PlacesInv stepping.link ∧ SessionInv stepping ∧ ∃ t : State, step stepping = .next t := by
  refine ⟨?_, ?_, test_stepping_completes⟩
  · unfold PlacesInv; decide +kernel
  · unfold SessionInv; decide +kernel

theorem witness_StepKeepsLinkCapacities : PlacesInv stepping.link ∧ ∃ t : State, step stepping = .next t := by
  refine ⟨?_, test_stepping_completes⟩
  unfold PlacesInv
  decide +kernel

end Sys2Proof.Tests
end

namespace Sys2Proof.Machine

/-! ### Fields as values and values as fields (R180) -/

theorem indexOf_eq_none {n : Nat} {b : Byte} (h : n ≤ b.toNat) : indexOf n b = none :=
  dif_neg (Nat.not_lt.mpr h)

theorem indexOf_eq_some {n : Nat} {b : Byte} {i : Fin n} (h : i.val = b.toNat) : indexOf n b = some i := by
  have inRange : b.toNat < n := h ▸ i.isLt
  exact (dif_pos inRange).trans (congrArg some (Fin.ext h.symm))

@[simp] theorem lowByte_wordOf (n : Nat) : lowByte (wordOf n) = byteOf n := by
  apply BitVec.eq_of_toNat_eq
  simp only [lowByte, wordOf, byteOf, BitVec.toNat_setWidth, BitVec.toNat_ofNat]
  omega

@[simp] theorem highByte_wordOf (n : Nat) : highByte (wordOf n) = byteOf (n / 256) := by
  apply BitVec.eq_of_toNat_eq
  simp only [highByte, wordOf, byteOf, BitVec.toNat_setWidth, BitVec.toNat_ushiftRight, BitVec.toNat_ofNat,
    Nat.shiftRight_eq_div_pow]
  omega

/-- A count in host-link order: its low byte, then the next. -/
theorem linkWord_wordOf (n : Nat) : linkWord (wordOf n) = [byteOf n, byteOf (n / 256)] := by
  simp [linkWord]

/-! ### A request command whose turn has come (R160) -/

/-- A command that is its owner's taking of a request answers what the owner's effect replies. -/
theorem answers_of_takeRequest {c : Instr} {r : Request} {tag : Byte} {payload : List Byte} {st : Status}
    {data : List Byte} {s t : State} {effect : State → State}
    (arm : exec c s = takeRequest r tag payload effect s) (turn : ItsTurn r tag payload s)
    (replies : effect s = reply tag st data t) : Answers c tag st data s t := by
  rw [Answers, arm, takeRequest_of_itsTurn effect turn, replies]

section
variable {tag index gen slot : Byte} {st : Status} {data : List Byte} {s t : State}

theorem answers_entryRead (turn : ItsTurn .entryRead tag [index] s)
    (replies : takeEntryRead tag index s = reply tag st data t) : Answers (.entryRead tag index) tag st data s t :=
  answers_of_takeRequest rfl turn replies

theorem answers_entryFree (turn : ItsTurn .entryFree tag [index, gen] s)
    (replies : takeEntryFree tag index gen s = reply tag st data t) :
    Answers (.entryFree tag index gen) tag st data s t :=
  answers_of_takeRequest rfl turn replies

theorem answers_chainRead (turn : ItsTurn .chainRead tag [slot] s)
    (replies : takeChainRead tag slot s = reply tag st data t) : Answers (.chainRead tag slot) tag st data s t :=
  answers_of_takeRequest rfl turn replies

end

/-! ### Handles (R3) -/

/-- A handle is stale when its entry is FREE or of another generation. -/
theorem currentBody_eq_none {m : Scm} {i : Fin Config.entryCount} {gen : Byte}
    (h : (tget m.entries i).body = none ∨ (tget m.entries i).gen ≠ gen) : currentBody m i gen = none := by
  rcases h with free | other
  · simp [currentBody, free]
  · simp [currentBody, other]

theorem currentBody_eq_some {m : Scm} {i : Fin Config.entryCount} {gen : Byte} {b : EntryBody}
    (body : (tget m.entries i).body = some b) (current : (tget m.entries i).gen = gen) :
    currentBody m i gen = some b := by
  simp [currentBody, body, current]

/-! ### CHAIN-READ (R16) -/

theorem takeChainRead_of_outOfRange {tag slot : Byte} (s : State) (h : Config.slotCount ≤ slot.toNat) :
    takeChainRead tag slot s = reply tag .outOfRange [] s := by
  simp [takeChainRead, indexOf_eq_none h]

theorem takeChainRead_of_slot {tag slot : Byte} {k : Fin Config.slotCount} (s : State) (h : k.val = slot.toNat) :
    takeChainRead tag slot s =
      reply tag .ok
        (slot :: byteOf (tget s.scm.chains k).length :: (tget s.scm.chains k).map fun i => byteOf i.val) s := by
  simp [takeChainRead, indexOf_eq_some h]

/-- Settles O26: the slot is above 31 or names a chain, and the taking has one branch for each. -/
theorem chainReadReturnsTheChain : Obligations.ChainReadReturnsTheChain := by
  intro tag slot s turn
  refine ⟨fun above => ?_, fun k hk => ?_⟩
  · exact answers_chainRead turn (takeChainRead_of_outOfRange s above)
  · exact answers_chainRead turn (takeChainRead_of_slot s hk)

/-! ### ENTRY-READ (R12) -/

theorem takeEntryRead_of_outOfRange {tag index : Byte} (s : State) (h : Config.entryCount ≤ index.toNat) :
    takeEntryRead tag index s = reply tag .outOfRange [] s := by
  simp [takeEntryRead, indexOf_eq_none h]

theorem takeEntryRead_of_index {tag index : Byte} {i : Fin Config.entryCount} (s : State)
    (h : i.val = index.toNat) :
    takeEntryRead tag index s = reply tag .ok (entryData index (tget s.scm.entries i)) s := by
  simp [takeEntryRead, indexOf_eq_some h]

theorem entryData_of_free {index : Byte} {e : Entry} (h : e.body = none) :
    entryData index e = [index, 0, e.gen] := by
  simp [entryData, h]

/-- The record of an ALLOCATED entry, each count as its two bytes, low byte first (R180). -/
theorem entryData_of_allocated {index : Byte} {e : Entry} {b : EntryBody} (h : e.body = some b) :
    entryData index e =
      [index, 1, e.gen] ++ entryParamBytes b ++ [byteOf b.trans.cost, byteOf (b.trans.cost / 256)]
      ++ [byteOf b.done, byteOf (b.done / 256)] ++ [byteOf b.failed, byteOf (b.failed / 256)]
      ++ [byteOf b.skipped, byteOf (b.skipped / 256)] ++ [byteOf b.notReady, byteOf (b.notReady / 256)]
      ++ [b.last.code, errorCode b.last.error, byteOf b.linkCount] ++ b.outputs.flatMap linkWord := by
  simp only [entryData, h, linkWord_wordOf]

/-- Settles O22: the index is above 127, or names a FREE or an ALLOCATED entry. The record of an ALLOCATED one is laid
out as 10.4 gives it; its error field needs the split over the last outcome, since only FAILED carries an error. -/
theorem entryReadReturnsTheRecord : Obligations.EntryReadReturnsTheRecord := by
  intro tag index s turn
  refine ⟨fun above => ?_, fun i hi => ⟨fun free => ?_, fun b allocated => ?_⟩⟩
  · exact answers_entryRead turn (takeEntryRead_of_outOfRange s above)
  · refine answers_entryRead turn ?_
    rw [takeEntryRead_of_index s hi, entryData_of_free free]
  · refine answers_entryRead turn ?_
    rw [takeEntryRead_of_index s hi, entryData_of_allocated allocated]
    have error : errorCode b.last.error = match b.last with | .failed e => errorCode (some e) | _ => 0 := by
      cases b.last <;> rfl
    rw [error]
    rfl

/-! ### ENTRY-FREE (R13) -/

theorem takeEntryFree_of_outOfRange {tag index : Byte} (gen : Byte) (s : State)
    (h : Config.entryCount ≤ index.toNat) : takeEntryFree tag index gen s = reply tag .outOfRange [] s := by
  simp [takeEntryFree, indexOf_eq_none h]

section
variable {tag index gen : Byte} {s : State} {i : Fin Config.entryCount} {b : EntryBody}

theorem takeEntryFree_of_stale (hi : i.val = index.toNat) (stale : currentBody s.scm i gen = none) :
    takeEntryFree tag index gen s = reply tag .stale [] s := by
  simp [takeEntryFree, indexOf_eq_some hi, stale]

theorem takeEntryFree_of_linked (hi : i.val = index.toNat) (current : currentBody s.scm i gen = some b)
    (linked : 0 < b.linkCount) : takeEntryFree tag index gen s = reply tag .inUse [] s := by
  simp [takeEntryFree, indexOf_eq_some hi, current, linked]

theorem takeEntryFree_of_unlinked (hi : i.val = index.toNat) (current : currentBody s.scm i gen = some b)
    (unlinked : b.linkCount = 0) :
    takeEntryFree tag index gen s =
      reply tag .ok [index, gen + 1] (putEntry i { gen := gen + 1, body := none } s) := by
  simp [takeEntryFree, indexOf_eq_some hi, current, unlinked]

end

/-- Settles O23: the checks of R13 in their order, and a branch of the taking for each. -/
theorem entryFreeFreesAnEntry : Obligations.EntryFreeFreesAnEntry := by
  intro tag index gen s turn
  refine ⟨fun above => ?_, fun i hi => ⟨fun stale => ?_, fun b body current =>
    ⟨fun linked => ?_, fun unlinked => ?_⟩⟩⟩
  · exact answers_entryFree turn (takeEntryFree_of_outOfRange gen s above)
  · exact answers_entryFree turn (takeEntryFree_of_stale hi (currentBody_eq_none stale))
  · exact answers_entryFree turn (takeEntryFree_of_linked hi (currentBody_eq_some body current) linked)
  · exact answers_entryFree turn (takeEntryFree_of_unlinked hi (currentBody_eq_some body current) unlinked)

end Sys2Proof.Machine

namespace Sys2Proof.Machine

/-! ### IDENTIFY (R174) -/

theorem answers_identify {tag : Byte} {st : Status} {data : List Byte} {s t : State}
    (turn : ItsTurn .identify tag [] s) (replies : takeIdentify tag s = reply tag st data t) :
    Answers (.identify tag) tag st data s t :=
  answers_of_takeRequest rfl turn replies

/-- The fields of R174 in the order of 10.4: the part code low byte first, the revision, the rate, the capacities. -/
theorem identifyData_eq (s : State) :
    identifyData s = [0x24, 0x4C, 1, s.link.rate.code, 24, 128, 32, 32, 16, 16, 32, 4, 8] := by
  have partCode : linkWord 0x4C24 = [0x24, 0x4C] := by decide
  simp only [identifyData, partCode, List.cons_append, List.nil_append]

/-- Settles O12: LNK's taking is a reply on the state it finds; the rate's code is the one of each strapping. -/
theorem identifyReturnsTheCapacities : Obligations.IdentifyReturnsTheCapacities := by
  intro tag s turn
  refine answers_identify turn ?_
  rw [takeIdentify, identifyData_eq]
  cases s.link.rate <;> rfl

/-! ### POWER_ON (R152, R179) -/

/-- Of the state before it, POWER_ON keeps only the commands that wait, and only the link rate depends on the
straps. -/
theorem exec_powerOn (lr1 lr0 : Bool) (s : State) :
    exec (.powerOn lr1 lr0) s =
      .next { State.reset with link := { Link.initial with rate := strapRate lr1 lr0 }, pending := s.pending } :=
  rfl

/-- Settles O4: the rate goes by the four rows of R152; every other value is the one LNK begins with. -/
theorem powerOnLinkValues : Obligations.PowerOnLinkValues := by
  intro lr1 lr0 s
  refine ⟨_, exec_powerOn lr1 lr0 s, ?rate, ?values⟩
  case rate => cases lr1 <;> cases lr0 <;> rfl
  case values => simp [Link.initial, Session.initial, SendState.cleared]

end Sys2Proof.Machine

namespace Sys2Proof.Machine

/-! ### What a command does: one effect for each request, one for each event -/

/-- What the owner of a request does when it takes it, for each request command. -/
def ownerEffect : Instr → State → State
  | .openSession tag w r t a => takeOpen tag w r t a
  | .closeSession tag => takeClose tag
  | .identify tag => takeIdentify tag
  | .status tag => takeStatus tag
  | .ackReports tag seq => takeAckReports tag seq
  | .resetEngine tag scope line => fun s => if scope = 1 then s else takeResetEngine tag scope line s
  | .resetAll tag => takeResetAll tag
  | .entryAdd tag p => takeEntryAdd tag p
  | .entrySet tag index gen p => takeEntrySet tag index gen p
  | .entryLoad tag index gen offset values => takeEntryLoad tag index gen offset values
  | .entryRead tag index => takeEntryRead tag index
  | .entryFree tag index gen => takeEntryFree tag index gen
  | .chainInsert tag slot position index gen => takeChainInsert tag slot position index gen
  | .chainRemove tag slot index => takeChainRemove tag slot index
  | .chainRead tag slot => takeChainRead tag slot
  | .scheduleLength tag len => takeScheduleLength tag len
  | .busConfig tag rate period guard settling => takeBusConfig tag rate period guard settling
  | .start tag line => takeStart tag line
  | .halt tag => takeHalt tag
  | .quiet tag => takeQuiet tag
  | .wake tag => takeWake tag
  | .submit tag kind drop first i o retries force values line =>
    takeSubmit tag kind drop first i o retries force values line
  | .cancel tag ticket line => takeCancel tag ticket line
  | .dropAttach tag drop threshold interval => takeDropAttach tag drop threshold interval
  | .dropDetach tag drop => takeDropDetach tag drop
  | .dropRead tag drop => takeDropRead tag drop
  | .dropClearService tag drop => takeDropClearService tag drop
  | .setConfig tag set mode width => takeSetConfig tag set mode width
  | .setRead tag set => takeSetRead tag set
  | .eventMask tag d v f => takeEventMask tag d v f
  | _ => id

/-- A request command is its owner's taking of the request it stands for. -/
theorem exec_request {c : Instr} {r : Request} {tag : Byte} {payload : List Byte}
    (stands : requestOf c = some (r, tag, payload)) (s : State) :
    exec c s = takeRequest r tag payload (ownerEffect c) s := by
  cases c <;> cases stands <;> rfl

/-- What an event does when it comes about, and that it changes nothing when its occasion is absent. -/
def eventEffect : Instr → State → State
  | .powerOn lr1 lr0, s =>
    { State.reset with link := { Link.initial with rate := strapRate lr1 lr0 }, pending := s.pending }
  | .linkCharacterReceived b framing, s => s.setLink (receive b framing s.link)
  | .linkFrameComplete b, s =>
    match s.link.receiver with
    | .collecting bytes =>
      if abandons bytes b false = false ∧ isComplete (bytes ++ [b]) then
        s.setLink (judgeFrame (bytes ++ [b]) { s.link with receiver := .hunting, breakHold := false })
      else s
    | .hunting => s
  | .linkFrameAbandon b framing, s =>
    match s.link.receiver with
    | .collecting bytes =>
      if abandons bytes b framing then s.setLink (abandonFrame { s.link with breakHold := false }) else s
    | .hunting => s
  | .linkIdleGapExpiry, s =>
    match s.link.receiver with
    | .collecting _ => s.setLink (abandonFrame s.link)
    | .hunting => s
  | .linkBreak, s =>
    match s.link.receiver with
    | .collecting _ => s.setLink { abandonFrame s.link with breakHold := true }
    | .hunting => s.setLink { s.link with breakHold := true }
  | .frameStart line, s =>
    if boundaryFalls s ∧ s.fen.engine = .running ∧ s.fen.quietPending = false then frameStart (hearAll line s) else s
  | .quietBoundary, s =>
    if boundaryFalls s ∧ s.fen.engine = .running ∧ s.fen.quietPending then quietBoundary s else s
  | .settlingBoundary line, s =>
    if boundaryFalls s ∧ s.fen.engine = .waking then
      if 0 < s.fen.settling then settlingBeacon line s else endSettling line s
    else s
  | .wakePulse line, s =>
    let seen := s.btx.lineWith line
    if s.fen.engine = .quiet ∧ s.fen.watching then
      match pulseAt s.fen.lowMeasure seen with
      | some k => enterWaking .wakePulse (s.setBtx (btxHear s.busRate k (seen.take k) s.btx))
      | none =>
        (s.setBtx (btxHear s.busRate seen.length seen s.btx)).setFen
          { s.fen with lowMeasure := seen.foldl measureTick s.fen.lowMeasure }
    else s
  | .broadcastFrameEnd, s =>
    match s.btx.state with
    | .broadcast b =>
      drive (Config.ticks * Config.broadcastTime)
        (s.setBtx { s.btx with state := .gap (.broadcast b), dbde := false })
    | _ => s
  | .broadcastGapEnd line, s =>
    match s.btx.state with
    | .gap (.broadcast b) =>
      afterBroadcast b.what (gapEnds b.rate (hear (Config.ticks * Config.gapTime) line s))
    | _ => s
  | .requestFrameEnd, s =>
    match s.btx.state, s.btx.capture with
    | .request, some c =>
      drive (Config.ticks * requestTime c.outCount)
        (s.setBtx { s.btx with state := .wait, dbde := false, rx := .empty })
    | _, _ => s
  | .answerStartBit line, s =>
    match s.btx.state, answerStart (s.btx.lineWith line) with
    | .wait, some n =>
      hear n line (s.setBtx { s.btx with state := .answer, rx := { Receiver.empty with startAt := some n } })
    | _, _ => s
  | .answerDeadline line, s =>
    match s.btx.state, answerStart (s.btx.lineWith line) with
    | .wait, none =>
      hear (Config.ticks * Config.answerDeadline) line
        (s.setBtx { s.btx with state := .gap (.attempt (.error .noAnswer)) })
    | _, _ => s
  | .answerEnd line, s =>
    match s.btx.state, s.btx.capture with
    | .answer, some c =>
      let t := takeAnswer c.inCount (s.btx.lineWith line)
      let r := judgeAnswer c t
      handService c.drop r (hear t.endAt line
        (s.setBtx { s.btx with
          state := .gap (.attempt r),
          rx := { s.btx.rx with bytes := t.bytes.map Prod.fst, endAt := some t.endAt } }))
    | _, _ => s
  | .attemptEnd line held, s =>
    match s.btx.state, s.fen.item, s.btx.capture with
    | .gap (.attempt r), some it, some c =>
      attemptEnded it c r held (hear (Config.ticks * Config.gapTime) line (s.setBtx { s.btx with state := .idle }))
    | .idle, none, _ => if s.fen.judgeDue ∧ held = false then judgeNext s else s
    | _, _, _ => s
  | .txFrameStart, s =>
    if s.link.ltx = .idle then
      match s.link.outbox with
      | r :: rest => s.setLink { s.link with ltx := .reply r, outbox := rest }
      | [] =>
        match reportToSend s.link s.rep with
        | some q => s.setLink (linkSendReport q s.link)
        | none => s
    else s
  | .replySent, s =>
    match s.link.ltx with
    | .reply r =>
      match r.origin with
      | .request =>
        let s1 := s.setLink (linkSent r s.link)
        if endsSession r s.link then sessionEnd .close s1 else s1
      | .short | .abandoned => s.setLink { s.link with ltx := .idle }
    | _ => s
  | .reportFrameSent, s =>
    match s.link.ltx with
    | .report _ counts =>
      s.setLink
        { s.link with
          ltx := .idle,
          send :=
            { s.link.send with
              position := if counts then s.link.send.position + 1 else s.link.send.position,
              timer :=
                if s.link.send.path = .sending then resendTimer s.link.send.unacked s.link
                else s.link.send.timer } }
    | _ => s
  | .resendTimeout, s => if s.link.send.timer.isSome then s.setLink (linkResend s.link) else s
  | .silenceTimeout, s => if s.link.session.silence.isSome then sessionEnd .silence s else s
  | _, s => s

/-- Every event completes, with its effect. -/
theorem exec_event {c : Instr} (event : requestOf c = none) (s : State) : exec c s = .next (eventEffect c s) := by
  cases c <;> cases event
  case powerOn => rfl
  case linkCharacterReceived => rfl
  all_goals
    simp only [exec, eventEffect, execLinkFrameComplete, execLinkFrameAbandon, execLinkIdleGapExpiry, execLinkBreak,
      execFrameStart, execQuietBoundary, execSettlingBoundary, execWakePulse, execBroadcastFrameEnd,
      execBroadcastGapEnd, execRequestFrameEnd, execAnswerStartBit, execAnswerDeadline, execAnswerEnd, execAttemptEnd,
      execTxFrameStart, execReplySent, execReportFrameSent, execResendTimeout, execSilenceTimeout]
    repeat' split
  all_goals simp_all

/-- Before its request is taken, a command changes nothing, or brings a frame to the receiver. -/
def Arrived (s u : State) : Prop :=
  u = s ∨ ∃ f : Frame, u = s.setLink (takeFrame f { s.link with breakHold := false })

/-- Every command completes: an event with its effect, a request taken or left after its frame has arrived. -/
theorem exec_cases (c : Instr) (s : State) :
    (requestOf c = none ∧ exec c s = .next (eventEffect c s))
    ∨ ∃ r tag payload u, requestOf c = some (r, tag, payload) ∧ Arrived s u
        ∧ (exec c s = .next u ∨ (ItsTurn r tag payload u ∧ exec c s = .next (ownerEffect c u))) := by
  cases stands : requestOf c with
  | none => exact .inl ⟨rfl, exec_event stands s⟩
  | some request =>
    obtain ⟨r, tag, payload⟩ := request
    obtain ⟨u, from_s, next⟩ := takeRequest_cases r tag payload (ownerEffect c) s
    have arrived : Arrived s u := by
      rcases from_s with rfl | rfl
      · exact .inl rfl
      · exact (arrive_cases r tag payload s).imp id fun arrives => ⟨_, arrives⟩
    exact .inr ⟨r, tag, payload, u, rfl, arrived, exec_request stands s ▸ next⟩

/-- What every arrival of a frame, every taking of a request and every event keeps, every command keeps. -/
theorem exec_keeps {P : State → Prop}
    (arrival : ∀ f s, P s → P (s.setLink (takeFrame f { s.link with breakHold := false })))
    (request : ∀ c r tag payload s, requestOf c = some (r, tag, payload) → ItsTurn r tag payload s →
      P s → P (ownerEffect c s))
    (event : ∀ c s, requestOf c = none → P s → P (eventEffect c s))
    {c : Instr} {s t : State} (holds : P s) (next : exec c s = .next t) : P t := by
  rcases exec_cases c s with ⟨isEvent, is⟩ | ⟨r, tag, payload, u, stands, arrived, is⟩
  · cases is.symm.trans next
    exact event c s isEvent holds
  · have at_u : P u := by
      rcases arrived with rfl | ⟨f, rfl⟩
      · exact holds
      · exact arrival f s holds
    rcases is with is | ⟨turn, is⟩
    · cases is.symm.trans next
      exact at_u
    · cases is.symm.trans next
      exact request c r tag payload u stands turn at_u

/-- An invariant that does not look at the queue of commands and that every command keeps is kept by every step. -/
theorem step_keeps {P : State → Prop} (queue : ∀ s q, P s → P { s with pending := q })
    (command : ∀ c s t, P s → exec c s = .next t → P t) {s t : State} (holds : P s) (next : step s = .next t) :
    P t := by
  unfold step at next
  split at next
  · exact command _ _ _ (queue s _ holds) next
  · cases next
    exact holds

/-! ### The step and the queue of commands -/

/-- Settles O1: the two branches of `step`. -/
theorem stepRunsTheFrontCommand : Obligations.StepRunsTheFrontCommand := by
  refine ⟨fun c rest s => rfl, fun s idle => ?_⟩
  rw [step, idle]

theorem eventEffect_pending (c : Instr) (s : State) : (eventEffect c s).pending = s.pending := by
  cases c <;> simp only [eventEffect]
  all_goals
    repeat' split
  all_goals simp

theorem ownerEffect_pending (c : Instr) (s : State) : (ownerEffect c s).pending = s.pending := by
  cases c <;> simp only [ownerEffect, id, takeOpen, takeClose, takeIdentify, takeStatus, takeAckReports,
    takeResetEngine, takeResetAll, takeEntryAdd, takeEntrySet, takeEntryLoad, takeEntryRead, takeEntryFree,
    takeChainInsert, takeChainRemove, takeChainRead, takeScheduleLength, takeBusConfig, takeStart, takeHalt, takeQuiet,
    takeWake, takeSubmit, takeCancel, takeDropAttach, takeDropDetach, takeDropRead, takeDropClearService, takeSetConfig,
    takeSetRead, takeEventMask, resetAllBlocks]
  all_goals
    repeat' split
  all_goals simp

/-- Settles O2: nothing an owner or an event does touches the queue of commands, and a frame that arrives changes LNK
alone. -/
theorem everyCommandCompletes : Obligations.EveryCommandCompletes := by
  intro c s
  rcases exec_cases c s with ⟨-, is⟩ | ⟨r, tag, payload, u, -, arrived, is⟩
  · exact ⟨_, is, eventEffect_pending c s⟩
  · have at_u : u.pending = s.pending := by
      rcases arrived with rfl | ⟨f, rfl⟩
      · rfl
      · rfl
    rcases is with is | ⟨-, is⟩
    · exact ⟨u, is, at_u⟩
    · exact ⟨_, is, (ownerEffect_pending c u).trans at_u⟩

end Sys2Proof.Machine

namespace Sys2Proof.Machine

/-! ### Deferred requests answered (R30) -/

/-- LNK after some answerings of deferred requests: all that the work of the other blocks does to it. -/
inductive Answered : Link → Link → Prop
  | refl (l : Link) : Answered l l
  | answer {l m : Link} (sel : Request → Bool) (st : Status) (data : List Byte) (before : Answered l m) :
    Answered l (linkAnswer sel st data m)

theorem Answered.trans {l m n : Link} (first : Answered l m) (second : Answered m n) : Answered l n := by
  induction second with
  | refl => exact first
  | answer sel st data _ ih => exact ih.answer sel st data

/-- What every answering of deferred requests keeps, they keep together. -/
theorem Answered.keeps {P : Link → Prop} (answer : ∀ sel st data l, P l → P (linkAnswer sel st data l)) {l m : Link}
    (answered : Answered l m) (holds : P l) : P m := by
  induction answered with
  | refl => exact holds
  | answer sel st data _ ih => exact answer _ _ _ _ ih

/-- Answering deferred requests leaves the session, the send state and LTX. -/
theorem Answered.frame {l m : Link} (answered : Answered l m) :
    m.session = l.session ∧ m.send = l.send ∧ m.ltx = l.ltx :=
  answered.keeps (P := fun m => m.session = l.session ∧ m.send = l.send ∧ m.ltx = l.ltx)
    (fun _ _ _ _ same => same) ⟨rfl, rfl, rfl⟩

/-! ### Outstanding tickets (R96) -/

theorem ticketCount_eq_length (f : Fen) : ticketCount f = (outstandingTickets f).length := by
  rw [ticketCount, outstandingTickets, inFlightTickets, List.length_append, List.length_map, Nat.add_comm]
  refine congrArg (· + f.queue.length) ?_
  cases f.item with
  | none => rfl
  | some it =>
    obtain ⟨source, retries, attempts, lastError⟩ := it
    cases source with
    | adHoc ticket mark => cases mark <;> rfl
    | periodic | probe => rfl

theorem outstandingTickets_congr {f g : Fen} (item : g.item = f.item) (queue : g.queue = f.queue) :
    outstandingTickets g = outstandingTickets f := by
  simp only [outstandingTickets, item, queue]

theorem ticketCount_congr {f g : Fen} (item : g.item = f.item) (queue : g.queue = f.queue) :
    ticketCount g = ticketCount f := by
  rw [ticketCount_eq_length, ticketCount_eq_length, outstandingTickets_congr item queue]

/-- The queue's tickets are outstanding. -/
theorem queue_sublist_outstandingTickets (f : Fen) : (f.queue.map AdHoc.ticket).Sublist (outstandingTickets f) :=
  List.sublist_append_right _ _

/-- With no item, or with one that has no ticket, the queue's tickets are the outstanding ones. -/
theorem outstandingTickets_of_noTicket {f : Fen}
    (noTicket : ∀ it n, f.item = some it → it.source ≠ .adHoc n true) :
    outstandingTickets f = f.queue.map AdHoc.ticket := by
  unfold outstandingTickets
  split
  · rename_i ticket retries attempts lastError item
    exact absurd rfl (noTicket _ ticket item)
  · rfl

theorem outstandingTickets_of_ticket {f : Fen} {it : Item} {n : Word} (item : f.item = some it)
    (source : it.source = .adHoc n true) : outstandingTickets f = n :: f.queue.map AdHoc.ticket := by
  obtain ⟨src, retries, attempts, lastError⟩ := it
  cases source
  simp [outstandingTickets, item]

/-! ### What the work of the frame engine, the drop bus and the stores does to sessions, tickets and reports -/

/-- From `s` to `t` LNK only answers deferred requests, tickets only end, and the report queue only grows: within its
places and, in a CLOSED session with no ticket, not at all; configuration and masks stand. -/
structure Proceeds (s t : State) : Prop where
  link : Answered s.link t.link
  config : t.fen.config = s.fen.config
  queue : t.fen.queue.Sublist s.fen.queue
  tickets : (outstandingTickets t.fen).Sublist (outstandingTickets s.fen)
  reports : s.rep.queue <+: t.rep.queue
  within : s.rep.queue.length + ticketCount s.fen ≤ Config.reportPlaces →
    t.rep.queue.length + ticketCount t.fen ≤ Config.reportPlaces
  closed : s.link.session.state = .closed → ticketCount s.fen = 0 → t.rep.queue = s.rep.queue
  masks : t.rep.maskDrop = s.rep.maskDrop ∧ t.rep.maskService = s.rep.maskService ∧ t.rep.maskFrame = s.rep.maskFrame

namespace Proceeds

variable {s t u : State}

theorem ticketCount_le (h : Proceeds s t) : ticketCount t.fen ≤ ticketCount s.fen := by
  rw [ticketCount_eq_length, ticketCount_eq_length]
  exact h.tickets.length_le

theorem session (h : Proceeds s t) : t.link.session = s.link.session := h.link.frame.1

theorem refl (s : State) : Proceeds s s where
  link := .refl _
  config := rfl
  queue := .refl _
  tickets := .refl _
  reports := List.prefix_rfl
  within := id
  closed _ _ := rfl
  masks := ⟨rfl, rfl, rfl⟩

theorem trans (first : Proceeds s t) (second : Proceeds t u) : Proceeds s u where
  link := first.link.trans second.link
  config := second.config.trans first.config
  queue := second.queue.trans first.queue
  tickets := second.tickets.trans first.tickets
  reports := first.reports.trans second.reports
  within := second.within ∘ first.within
  closed isClosed none := by
    have none' : ticketCount t.fen = 0 := Nat.eq_zero_of_le_zero (none ▸ first.ticketCount_le)
    have isClosed' : t.link.session.state = .closed := by rw [first.session, isClosed]
    exact (second.closed isClosed' none').trans (first.closed isClosed none)
  masks := by
    obtain ⟨d, v, f⟩ := first.masks
    obtain ⟨d', v', f'⟩ := second.masks
    exact ⟨d'.trans d, v'.trans v, f'.trans f⟩

/-- `trans`, the last part first. -/
theorem onto (last : Proceeds t u) (first : Proceeds s t) : Proceeds s u := first.trans last

/-- Changes of FEN that let tickets alone, and of BTX, DRM, RST and SCM. -/
theorem of_same (link : t.link = s.link := by rfl) (rep : t.rep = s.rep := by rfl)
    (config : t.fen.config = s.fen.config := by rfl) (queue : t.fen.queue = s.fen.queue := by rfl)
    (item : t.fen.item = s.fen.item := by rfl) : Proceeds s t where
  link := link ▸ .refl _
  config := config
  queue := queue ▸ .refl _
  tickets := outstandingTickets_congr item queue ▸ .refl _
  reports := rep ▸ List.prefix_rfl
  within := by rw [rep, ticketCount_congr item queue]; exact id
  closed _ _ := rep ▸ rfl
  masks := rep ▸ ⟨rfl, rfl, rfl⟩

/-- FEN changes, and its tickets are some of those it had. -/
theorem of_tickets (tickets : (outstandingTickets t.fen).Sublist (outstandingTickets s.fen))
    (queue : t.fen.queue.Sublist s.fen.queue) (link : t.link = s.link := by rfl) (rep : t.rep = s.rep := by rfl)
    (config : t.fen.config = s.fen.config := by rfl) : Proceeds s t where
  link := link ▸ .refl _
  config := config
  queue := queue
  tickets := tickets
  reports := rep ▸ List.prefix_rfl
  within := by
    have := tickets.length_le
    rw [← ticketCount_eq_length, ← ticketCount_eq_length] at this
    rw [rep]
    omega
  closed _ _ := rep ▸ rfl
  masks := rep ▸ ⟨rfl, rfl, rfl⟩

/-- A report is admitted, latched or merged (7.3). -/
theorem setRep {p : Rep} (joins : Joins s.admits s.rep p) : Proceeds s (s.setRep p) where
  link := .refl _
  config := rfl
  queue := .refl _
  tickets := .refl _
  reports := by
    obtain ⟨same | ⟨-, r, added⟩, -⟩ := joins
    · simp [same]
    · simp [added]
  within := by
    obtain ⟨same | ⟨ok, r, added⟩, -⟩ := joins
    · simp [same]
    · simp only [State.admits, admits, Bool.and_eq_true, decide_eq_true_eq] at ok
      simp only [setRep_rep, added, setRep_fen, List.length_append, List.length_singleton]
      omega
  closed isClosed _ := by
    obtain ⟨same | ⟨ok, -⟩, -⟩ := joins
    · exact same
    · simp [State.admits, admits, Session.isOpen, isClosed] at ok
  masks := joins.2

theorem offerEngine (c : EngineChange) (s : State) : Proceeds s (offerEngine c s) := setRep (repEngine_joins _ c _)
theorem offerDrop (d : Fin Config.dropCount) (c : DropChange) (s : State) : Proceeds s (offerDrop d c s) :=
  setRep (repDrop_joins _ d c _)
theorem offerService (d : Fin Config.dropCount) (s : State) : Proceeds s (offerService d s) :=
  setRep (repService_joins _ d _)
theorem offerFrame (f : FrameSummary) (s : State) : Proceeds s (offerFrame f s) := setRep (repFrame_joins _ f _)

/-- A ticket ends, and its TICKET-DONE takes the place it had (R122, R124). -/
theorem of_ended {r : TicketDone} (tickets : (outstandingTickets t.fen).Sublist (outstandingTickets s.fen))
    (queue : t.fen.queue.Sublist s.fen.queue) (ends : ticketCount t.fen < ticketCount s.fen)
    (rep : t.rep = enqueue (.ticketDone r) s.rep := by rfl) (link : t.link = s.link := by rfl)
    (config : t.fen.config = s.fen.config := by rfl) : Proceeds s t where
  link := link ▸ .refl _
  config := config
  queue := queue
  tickets := tickets
  reports := rep ▸ List.prefix_append _ _
  within := by
    simp only [rep, enqueue_queue, List.length_append, List.length_singleton]
    omega
  closed _ none := by omega
  masks := rep ▸ ⟨rfl, rfl, rfl⟩

theorem answerDeferred (sel : Request → Bool) (st : Status) (data : List Byte) (s : State) :
    Proceeds s (answerDeferred sel st data s) where
  link := (Answered.refl _).answer sel st data
  config := rfl
  queue := .refl _
  tickets := .refl _
  reports := List.prefix_rfl
  within := id
  closed _ _ := rfl
  masks := ⟨rfl, rfl, rfl⟩

theorem enterEngine (new : EngineState) (cause : EngineCause) (s : State) : Proceeds s (enterEngine new cause s) :=
  .trans .of_same (offerEngine _ _)

theorem handBroadcast (b : Broadcast) (s : State) : Proceeds s (handBroadcast b s) := of_same rfl rfl rfl rfl rfl

theorem hear (n : Nat) (line : List Level) (s : State) : Proceeds s (hear n line s) := of_same rfl rfl rfl rfl rfl

theorem hearAll (line : List Level) (s : State) : Proceeds s (hearAll line s) := hear _ line s

theorem drive (n : Nat) (s : State) : Proceeds s (drive n s) := of_same rfl rfl rfl rfl rfl

end Proceeds

/-! ### The drop manager and the result store proceed -/

theorem applyDrop_proceeds (d : Fin Config.dropCount) (out : DropRec × Option DropChange) (s : State) :
    Proceeds s (applyDrop d out s) := by
  unfold applyDrop
  dsimp only
  split
  · exact .trans .of_same (.offerDrop _ _ _)
  · exact .of_same

theorem probeOutcome_proceeds (r : AttemptResult) (s : State) : Proceeds s (probeOutcome r s) := by
  have empties : Proceeds s (s.setDrm { s.drm with probe := none }) := .of_same
  unfold probeOutcome
  dsimp only
  repeat' split
  · exact empties.trans (applyDrop_proceeds _ _ _)
  · exact empties
  · exact empties

theorem serviceHandover_proceeds (d : Fin Config.dropCount) (flag : Bool) (s : State) :
    Proceeds s (serviceHandover d flag s) := by
  unfold serviceHandover
  dsimp only
  split
  · exact .trans .of_same (.offerService _ _)
  · exact .refl s

theorem handService_proceeds (d : Fin Config.dropCount) (r : AttemptResult) (s : State) :
    Proceeds s (handService d r s) := by
  unfold handService
  split
  · exact serviceHandover_proceeds _ _ _
  · exact .refl s

/-- A block that completes is one report when the test lets it (R111). -/
theorem deposit_proceeds (k : Fin Config.setCount) (x : Sample) (s : State) : Proceeds s (deposit k x s) := by
  unfold deposit
  dsimp only
  repeat' split
  · exact .refl s
  · exact .of_same
  · exact .of_same
  case _ ok =>
    exact .trans (t := s.setRep (enqueue _ s.rep)) (.setRep ⟨.inr ⟨ok, _, rfl⟩, rfl, rfl, rfl⟩) .of_same
  · exact .of_same

/-! ### The walk proceeds -/

theorem raiseSkips_proceeds (s : State) : Proceeds s (raiseSkips s) := by
  unfold raiseSkips
  split
  · exact .offerFrame _ _
  · exact .refl s

/-- An item without a ticket starts. -/
theorem startItem_proceeds {src : ItemSource} (noTicket : ∀ n, src ≠ .adHoc n true) (retries : Nat) (c : Capture)
    (s : State) : Proceeds s (startItem src retries c s) := by
  refine .of_tickets ?tickets (.refl _)
  rw [outstandingTickets_of_noTicket (fun it n item => by obtain rfl := Option.some.inj item; exact noTicket n)]
  exact queue_sublist_outstandingTickets s.fen

/-- The head of the queue starts with its ticket (R98). -/
theorem startItem_head_proceeds {h : AdHoc} {rest : List AdHoc} (retries : Nat) (c : Capture) {s : State}
    (queue : s.fen.queue = h :: rest) :
    Proceeds s (startItem (.adHoc h.ticket true) retries c (s.setFen { s.fen with queue := rest })) := by
  refine .of_tickets ?tickets (queue ▸ List.sublist_cons_self _ _)
  rw [outstandingTickets_of_ticket rfl rfl]
  have := queue_sublist_outstandingTickets s.fen
  rwa [queue] at this

/-- The head of the queue loses its ticket (R96). -/
theorem head_ends {f : Fen} {h : AdHoc} {rest : List AdHoc} (queue : f.queue = h :: rest) :
    (outstandingTickets { f with queue := rest }).Sublist (outstandingTickets f)
      ∧ ticketCount { f with queue := rest } < ticketCount f := by
  constructor
  · simp only [outstandingTickets, queue]
    exact .append (.refl _) (List.sublist_cons_self _ _)
  · simp only [ticketCount, inFlightTickets, queue, List.length_cons]
    omega

/-- With no item in progress the tickets are the queue's (R96). -/
theorem outstandingTickets_noItem (f : Fen) : outstandingTickets { f with item := none } = f.queue.map AdHoc.ticket :=
  outstandingTickets_of_noTicket (fun _ _ item => nomatch item)

theorem outstandingTickets_noItem_sublist (f : Fen) :
    (outstandingTickets { f with item := none }).Sublist (outstandingTickets f) :=
  outstandingTickets_noItem f ▸ queue_sublist_outstandingTickets f

/-- The item in progress loses its ticket (R96). -/
theorem item_ends {f : Fen} {it : Item} {n : Word} (item : f.item = some it) (source : it.source = .adHoc n true) :
    ticketCount { f with item := none } < ticketCount f := by
  rw [ticketCount_eq_length, ticketCount_eq_length, outstandingTickets_noItem, outstandingTickets_of_ticket item source]
  simp

theorem adHocNotReady_proceeds {h : AdHoc} {rest : List AdHoc} {s : State} (queue : s.fen.queue = h :: rest) :
    Proceeds s (adHocNotReady h rest s) :=
  .of_ended (head_ends queue).1 (queue ▸ List.sublist_cons_self _ _) (head_ends queue).2

/-- The ad hoc stage ends tickets and starts at most the head that is left. -/
theorem serveAdHoc_proceeds (q : List AdHoc) (s : State) (queue : s.fen.queue = q) : Proceeds s (serveAdHoc q s) := by
  induction q generalizing s with
  | nil => exact .refl s
  | cons h rest ih =>
    unfold serveAdHoc
    repeat' split
    · exact .refl s
    · exact (adHocNotReady_proceeds queue).trans (ih _ rfl)
    · exact startItem_head_proceeds _ _ queue
    · exact .refl s

theorem adHocStage_proceeds (s : State) : Proceeds s (adHocStage s) :=
  .trans .of_same (serveAdHoc_proceeds _ _ rfl)

theorem probeStage_proceeds (s : State) : Proceeds s (probeStage s) := by
  have begins : Proceeds s (s.setFen { s.fen with stage := .probe }) := .of_same
  unfold probeStage
  dsimp only
  repeat' split
  · exact begins.trans (.trans .of_same (startItem_proceeds (fun n => by simp) _ _ _))
  · exact begins.trans (adHocStage_proceeds _)
  · exact begins.trans (adHocStage_proceeds _)

theorem walkPeriodic_proceeds (pairs : List PlanPair) (s : State) : Proceeds s (walkPeriodic pairs s) := by
  induction pairs generalizing s with
  | nil => exact (raiseSkips_proceeds s).trans (probeStage_proceeds _)
  | cons p rest ih =>
    have passes : Proceeds s (s.setFen { s.fen with planPos := s.fen.planPos + 1 }) := .of_same
    unfold walkPeriodic
    dsimp only
    repeat' split
    · exact passes.trans (ih _)
    · exact passes.trans (.trans .of_same (ih _))
    · exact passes.trans (.trans .of_same (ih _))
    · exact passes.trans (startItem_proceeds (fun n => by simp) _ _ _)

theorem continueWalk_proceeds (s : State) : Proceeds s (continueWalk s) := by
  have walks : Proceeds s (walkPeriodic (s.fen.plan.drop s.fen.planPos) (s.setFen { s.fen with stage := .periodic })) :=
    .trans .of_same (walkPeriodic_proceeds _ _)
  unfold continueWalk
  split
  · exact .refl s
  · exact walks
  · exact walks
  · exact probeStage_proceeds s
  · exact adHocStage_proceeds s
  · exact adHocStage_proceeds s

theorem judgeNext_proceeds (s : State) : Proceeds s (judgeNext s) :=
  .trans .of_same (continueWalk_proceeds _)

/-! ### Stopping and going quiet proceed -/

theorem goQuiet_proceeds (cause : EngineCause) (s : State) : Proceeds s (goQuiet cause s) :=
  (Proceeds.handBroadcast .quiet s).trans (.trans .of_same (.enterEngine _ _ _))

theorem enterStopped_proceeds (cause : EngineCause) (s : State) : Proceeds s (enterStopped cause s) := by
  unfold enterStopped
  dsimp only
  split
  · exact (raiseSkips_proceeds s).trans (.trans .of_same (.enterEngine _ _ _))
  · exact .trans .of_same (.enterEngine _ _ _)

theorem carryQuiet_proceeds (cause : EngineCause) (s : State) : Proceeds s (carryQuiet cause s) := by
  unfold carryQuiet
  split
  · exact (goQuiet_proceeds cause s).trans (.answerDeferred _ _ _ _)
  · exact .refl s

theorem haltingEnds_proceeds (s : State) : Proceeds s (haltingEnds s) :=
  (enterStopped_proceeds _ s).trans ((Proceeds.answerDeferred _ _ _ _).trans (carryQuiet_proceeds _ _))

theorem quietBoundary_proceeds (s : State) : Proceeds s (quietBoundary s) :=
  (goQuiet_proceeds _ s).trans (.answerDeferred _ _ _ _)

/-! ### The end of an item proceeds -/

theorem routeDeposit_proceeds (p : PlanPair) (route : Route) (fault service : Bool) (values : List Word) (s : State) :
    Proceeds s (routeDeposit p route fault service values s) := by
  unfold routeDeposit
  dsimp only
  split
  · exact deposit_proceeds _ _ _
  · exact .refl s

theorem recordPeriodic_proceeds (p : PlanPair) (d : Fin Config.dropCount) (r : AttemptResult) (s : State) :
    Proceeds s (recordPeriodic p d r s) := by
  unfold recordPeriodic
  split
  · exact applyDrop_proceeds _ _ _
  · rename_i b _
    have records : Proceeds s (dropOutcome d r.success (putBody p.index (bodyOutcome r b) s)) :=
      .trans .of_same (applyDrop_proceeds _ _ _)
    dsimp only
    split
    · exact records.trans (routeDeposit_proceeds _ _ _ _ _ _)
    · exact records

theorem clearItem_proceeds (s : State) : Proceeds s (clearItem s) :=
  .of_tickets (outstandingTickets_noItem_sublist s.fen) (.refl _)

/-- The item of a ticket ends with its TICKET-DONE, which takes the ticket's place (R101, R122). -/
theorem recordAdHoc_proceeds {ticket : Word} {mark : Bool} {it : Item} {s : State} (d : Fin Config.dropCount)
    (r : AttemptResult) (item : s.fen.item = some it) (source : it.source = .adHoc ticket mark) :
    Proceeds s (recordAdHoc ticket mark it d r s) := by
  have outcome : Proceeds s (dropOutcome d r.success s) := applyDrop_proceeds _ _ _
  have item' : (dropOutcome d r.success s).fen.item = some it := by rw [dropOutcome_fen, item]
  unfold recordAdHoc
  dsimp only
  split
  · rename_i marked
    subst marked
    exact outcome.trans (.of_ended (outstandingTickets_noItem_sublist _) (.refl _) (item_ends item' source))
  · exact outcome.trans (clearItem_proceeds _)

theorem recordItem_proceeds {it : Item} {s : State} (d : Fin Config.dropCount) (r : AttemptResult)
    (item : s.fen.item = some it) : Proceeds s (recordItem it d r s) := by
  unfold recordItem
  split
  · exact (recordPeriodic_proceeds _ _ _ _).trans (clearItem_proceeds _)
  · exact (probeOutcome_proceeds _ _).trans (clearItem_proceeds _)
  · rename_i source
    exact recordAdHoc_proceeds d r item source

theorem leaveJudgement_proceeds (s : State) : Proceeds s (leaveJudgement s) := by
  unfold leaveJudgement endPeriodic
  dsimp only
  split
  · exact (raiseSkips_proceeds s).trans .of_same
  · exact .of_same

theorem afterItem_proceeds (held : Bool) (s : State) : Proceeds s (afterItem held s) := by
  unfold afterItem
  repeat' split
  · exact haltingEnds_proceeds s
  · exact leaveJudgement_proceeds s
  · exact continueWalk_proceeds s
  · exact .refl s

/-- A retry keeps the item's source, and with it the ticket. -/
theorem outstandingTickets_retry {f : Fen} {it : Item} (item : f.item = some it) (attempts : Nat)
    (e : Option AttemptError) :
    outstandingTickets { f with item := some { it with attempts := attempts, lastError := e } } = outstandingTickets f := by
  obtain ⟨source, retries, _, _⟩ := it
  simp only [outstandingTickets, item]
  cases source with
  | adHoc ticket mark => cases mark <;> rfl
  | periodic | probe => rfl

theorem attemptEnded_proceeds {it : Item} {s : State} (c : Capture) (r : AttemptResult) (held : Bool)
    (item : s.fen.item = some it) : Proceeds s (attemptEnded it c r held s) := by
  have ends := (recordItem_proceeds c.drop r item).trans (afterItem_proceeds held _)
  unfold attemptEnded
  repeat' split
  · exact ends
  · exact .of_tickets (by
      rw [setBtx_fen, setFen_fen]
      exact outstandingTickets_retry item _ _ ▸ .refl _) (.refl _)
  · exact ends

/-! ### Frames, waking and the halt claim proceed -/

theorem jammedStart_proceeds (s : State) : Proceeds s (jammedStart s) := by
  have counts : Proceeds s (s.setFen { s.fen with jamCount := s.fen.jamCount + 1, plan := [], planPos := 0, stage := .idle }) :=
    .of_same
  unfold jammedStart
  dsimp only
  split
  · exact counts.trans ((Proceeds.offerFrame _ _).trans (enterStopped_proceeds _ _))
  · exact counts.trans (.offerFrame _ _)

theorem frameStart_proceeds (s : State) : Proceeds s (frameStart s) := by
  unfold frameStart
  dsimp only
  refine .trans (t := s.setFen { s.fen with
    frame := s.fen.frame + 1, slot := slotOf (s.fen.frame + 1) s.scm.schedLen, skipCount := 0, timer := some 0,
    startPending := false }) .of_same ?_
  split
  · exact (jammedStart_proceeds _).trans .of_same
  · exact .of_same

theorem enterWaking_proceeds (cause : EngineCause) (s : State) : Proceeds s (enterWaking cause s) :=
  (Proceeds.handBroadcast .resume s).trans (.trans .of_same (.enterEngine _ _ _))

theorem haltClaim_proceeds (s : State) : Proceeds s (haltClaim s) := by
  unfold haltClaim
  repeat' split
  · exact .refl s
  · exact .trans .of_same (.enterEngine _ _ _)
  · exact (enterStopped_proceeds _ s).trans (carryQuiet_proceeds _ _)
  · exact .of_same
  · exact enterStopped_proceeds _ s
  · exact .refl s
  · exact .refl s

theorem settlingBeacon_proceeds (line : List Level) (s : State) : Proceeds s (settlingBeacon line s) :=
  (Proceeds.hearAll line s).trans .of_same

theorem endSettling_proceeds (line : List Level) (s : State) : Proceeds s (endSettling line s) :=
  (Proceeds.enterEngine _ _ s).trans ((Proceeds.answerDeferred _ _ _ _).trans
    ((Proceeds.hearAll line _).trans (frameStart_proceeds _)))

/-! ### RESET ENGINE proceeds -/

theorem abortInFlight_proceeds (s : State) : Proceeds s (abortInFlight s) := by
  have tickets := outstandingTickets_noItem_sublist s.fen
  unfold abortInFlight
  split
  · rename_i item
    exact .of_ended tickets (.refl _) (item_ends item rfl)
  · exact .of_tickets tickets (.refl _)

theorem abortQueue_proceeds (q : List AdHoc) (s : State) (queue : s.fen.queue = q) : Proceeds s (abortQueue q s) := by
  induction q generalizing s with
  | nil => exact .refl s
  | cons h rest ih =>
    exact .onto (ih _ rfl) (.of_ended (head_ends queue).1 (queue ▸ List.sublist_cons_self _ _) (head_ends queue).2)

theorem completeReset_proceeds (s : State) : Proceeds s (completeReset s) := by
  have queue : (abortInFlight s).fen.queue = s.fen.queue := by
    unfold abortInFlight
    split <;> rfl
  have aborts : Proceeds s (answerDeferred isEngineDeferred .aborted [] (abortQueue s.fen.queue (abortInFlight s))) :=
    (abortInFlight_proceeds s).trans ((abortQueue_proceeds _ _ queue).trans (.answerDeferred _ _ _ _))
  have resets : ∀ t : State, Proceeds t (t.setFen (fenResetEngine t.fen)) := fun t =>
    .of_tickets (List.nil_sublist _) (List.nil_sublist _)
  unfold completeReset
  dsimp only
  split
  · exact aborts.trans (resets _)
  · exact aborts.trans ((Proceeds.enterEngine _ _ _).trans (resets _))

theorem afterBroadcast_proceeds (ended : Broadcast) (s : State) : Proceeds s (afterBroadcast ended s) := by
  unfold afterBroadcast
  repeat' split
  · exact .of_same
  · exact .of_same
  · exact (completeReset_proceeds s).trans (.answerDeferred _ _ _ _)
  · exact .of_same
  · exact quietBoundary_proceeds s
  · exact frameStart_proceeds s
  · exact continueWalk_proceeds s
  · exact .refl s
  · exact .refl s

theorem examineAfter_proceeds (line : List Level) (s : State) : Proceeds s (examineAfter line s) := by
  unfold examineAfter
  split
  · exact (Proceeds.hearAll line s).trans (adHocStage_proceeds _)
  · exact .refl s

end Sys2Proof.Machine

namespace Sys2Proof.Machine

/-! ### What taking a request does to sessions, tickets and reports -/

/-- An offering of latches proceeds: reports join the tail while the test lets them (R133). -/
theorem offerLatches_proceeds (ids : List LatchId) (s : State) : Proceeds s (offerLatches ids s).1 := by
  obtain ⟨⟨added, queue, -⟩, masks⟩ := offering_adds s.link.session.isOpen (ticketCount s.fen) ids s.rep
  exact {
    link := .refl _
    config := rfl
    queue := .refl _
    tickets := .refl _
    reports := ⟨added, queue.symm⟩
    within := fun places => offering_within _ _ _ _ places
    closed := fun isClosed _ => by
      have notOpen : s.link.session.isOpen = false := by simp [Session.isOpen, isClosed]
      simp only [offerLatches, setRep_rep, notOpen, offering_closed]
    masks := masks }

/-- The owner's answer to a request: its reply, or, for a request of an OPEN session, that the reply waits (R161). -/
inductive Replied (r : Request) (tag : Byte) (u : State) : State → Prop
  | reply (st : Status) (data : List Byte) : Replied r tag u (reply tag st data u)
  | defer (needsSession : r.anySession = false) : Replied r tag u (deferReply tag u)

/-- What a request, before it is answered, changes of sessions, tickets, masks and the configuration beyond what the
work of the part does to them: at most one of these. -/
inductive Changed (r : Request) (s : State) : State → Prop
  | none : Changed r s s
  | opened (w t a : Byte) (action : LinkLoss) (closed : s.link.session.state = .closed) (window : w.toNat ≤ 8) :
    Changed r s ((s.setLink (linkOpen w t a action s.link)).setRep { s.rep with nextSeq := 0 })
  | closing (isOpen : s.link.session.state ≠ .closed) :
    Changed r s (s.setLink { s.link with session := { s.link.session with state := .closing } })
  | acknowledged (k : Nat) (sent : k ≤ s.link.send.unacked) :
    Changed r s ((s.setLink (linkAck k s.link)).setRep { s.rep with queue := s.rep.queue.drop k })
  | repeated (needsSession : r.anySession = false) : Changed r s (s.setLink (linkRepeat s.link))
  | masked (d v f : Mask) (needsSession : r.anySession = false) :
    Changed r s (s.setRep { s.rep with maskDrop := d, maskService := v, maskFrame := f })
  | submitted (h : AdHoc) (fresh : h.ticket = nextTicket s.fen) (ranges : transOk h.trans = true)
    (fits : h.trans.cost ≤ s.fen.config.budget) (few : ticketCount s.fen < Config.ticketLimit)
    (places : s.rep.queue.length + ticketCount s.fen < Config.reportPlaces) (needsSession : r.anySession = false) :
    Changed r s (s.setFen { s.fen with queue := s.fen.queue ++ [h], ticket := h.ticket })
  | configured (c : BusConfig) (fit : ∀ h ∈ s.fen.queue, h.trans.cost ≤ c.budget) : Changed r s (withConfig c s)
  | reset : Changed r s (resetAllBlocks s)

/-- From `s` to `t` the request of this tag is taken: something may change, it is answered, and the work goes on. -/
def Takes (r : Request) (tag : Byte) (s t : State) : Prop :=
  ∃ s1 u v, Changed r s s1 ∧ Proceeds s1 u ∧ Replied r tag u v ∧ Proceeds v t

namespace Takes

variable {r : Request} {tag : Byte} {s t : State}

theorem answered {s1 u v : State} (changed : Changed r s s1) (before : Proceeds s1 u) (replied : Replied r tag u v)
    (afterwards : Proceeds v t) : Takes r tag s t := ⟨s1, u, v, changed, before, replied, afterwards⟩

/-- A request that is refused, or answered on what the work of the part made of the state. -/
theorem reply {u : State} (st : Status) (data : List Byte) (before : Proceeds s u) :
    Takes r tag s (Machine.reply tag st data u) := answered .none before (.reply st data) (.refl _)

/-- The same, with the state before the reply given by its blocks. -/
theorem reply_same {u : State} (st : Status) (data : List Byte) (link : u.link = s.link := by rfl)
    (rep : u.rep = s.rep := by rfl) (fen : u.fen = s.fen := by rfl) : Takes r tag s (Machine.reply tag st data u) :=
  .reply st data (.of_same link rep (fen ▸ rfl) (fen ▸ rfl) (fen ▸ rfl))

theorem refused (st : Status) : Takes r tag s (Machine.reply tag st [] s) := .reply st [] (.refl s)

theorem defer {u : State} (needsSession : r.anySession = false) (before : Proceeds s u) :
    Takes r tag s (deferReply tag u) := answered .none before (.defer needsSession) (.refl _)

end Takes

theorem takeOpen_takes (tag w r t a : Byte) (s : State) : Takes .open_ tag s (takeOpen tag w r t a s) := by
  unfold takeOpen
  repeat' split
  · exact .refused _
  · rename_i notOpen _ _ action range _
    have closed : s.link.session.state = .closed := by simpa [Session.isOpen] using notOpen
    have window : w.toNat ≤ 8 := by
      simp only [openInRange, Bool.and_eq_true, decide_eq_true_eq] at range
      omega
    exact .answered (.opened w r t action closed window) (offerLatches_proceeds _ _) (.reply _ _) (.refl _)
  · exact .refused _

theorem takeClose_takes (tag : Byte) (s : State) : Takes .close tag s (takeClose tag s) := by
  unfold takeClose
  split
  · rename_i isOpen
    exact .answered (.closing (by simpa [Session.isOpen] using isOpen)) (.refl _) (.reply _ _) (.refl _)
  · exact .refused _

theorem takeAckReports_takes (tag seq : Byte) (s : State) : Takes .ackReports tag s (takeAckReports tag seq s) := by
  unfold takeAckReports
  dsimp only
  repeat' split
  · rename_i sent
    exact .answered (.acknowledged _ sent) (offerLatches_proceeds _ _) (.reply _ _) (.refl _)
  · exact .answered (.repeated rfl) (.refl _) (.reply _ _) (.refl _)
  · exact .refused _

/-- Up to an abandonment only BTX and what DRM and RST hold change. -/
theorem resetEngineNow_takes (tag : Byte) (line : List Level) (s : State) :
    Takes .reset tag s (resetEngineNow tag line s) := by
  unfold resetEngineNow
  dsimp only
  split
  · exact .defer rfl .of_same
  · exact .reply _ _ (.trans .of_same (completeReset_proceeds _))

theorem takeResetEngine_takes (tag scope : Byte) (line : List Level) (s : State) :
    Takes .reset tag s (takeResetEngine tag scope line s) := by
  unfold takeResetEngine
  split
  · exact resetEngineNow_takes tag line s
  · exact .refused _

theorem takeResetAll_takes (tag : Byte) (s : State) : Takes .reset tag s (takeResetAll tag s) :=
  .answered .reset (.answerDeferred _ _ _ _) (.reply _ _) (.refl _)

theorem takeBusConfig_takes (tag rate period guard settling : Byte) (s : State) :
    Takes .busConfig tag s (takeBusConfig tag rate period guard settling s) := by
  unfold takeBusConfig
  repeat' split
  · exact .refused _
  · exact .refused _
  · exact .refused _
  · rename_i c _ fit
    refine .answered (.configured c fun h mem => ?_) (.refl _) (.reply _ _) (.refl _)
    simp only [List.any_eq_true, decide_eq_true_eq, not_exists, not_and, Nat.not_lt] at fit
    exact fit h mem

theorem takeStart_takes (tag : Byte) (line : List Level) (s : State) : Takes .start tag s (takeStart tag line s) := by
  have runs : Proceeds s (enterEngine .running .host (s.setFen { s.fen with jamCount := 0 })) :=
    .trans .of_same (.enterEngine _ _ _)
  unfold takeStart
  repeat' split
  · exact .answered .none runs (.reply _ _) ((Proceeds.hearAll line _).trans (frameStart_proceeds _))
  · exact .answered .none runs (.reply _ _) .of_same
  · exact .refused _
  · exact .refused _
  · exact .refused _
  · exact .refused _

theorem takeHalt_takes (tag : Byte) (s : State) : Takes .halt tag s (takeHalt tag s) := by
  unfold takeHalt
  repeat' split
  · exact .defer rfl (.trans .of_same (.enterEngine _ _ _))
  · exact .answered .none (enterStopped_proceeds _ _) (.reply _ _) (carryQuiet_proceeds _ _)
  · exact .defer rfl (.refl s)
  · exact .reply _ _ ((enterStopped_proceeds _ s).trans (.answerDeferred _ _ _ _))
  · exact .refused _
  · exact .refused _

theorem takeQuiet_takes (tag : Byte) (s : State) : Takes .quiet tag s (takeQuiet tag s) := by
  unfold takeQuiet
  repeat' split
  · exact .defer rfl .of_same
  · exact .reply _ _ (goQuiet_proceeds _ s)
  · exact .reply _ _ ((goQuiet_proceeds _ s).trans (.answerDeferred _ _ _ _))
  · exact .refused _
  · exact .refused _

theorem takeWake_takes (tag : Byte) (s : State) : Takes .wake tag s (takeWake tag s) := by
  unfold takeWake
  split
  · exact .defer rfl (enterWaking_proceeds _ s)
  · exact .defer rfl (.refl s)
  · exact .refused _
  · exact .refused _
  · exact .refused _

/-- The fields that a SUBMIT gives are in range (R94). -/
theorem transOk_of_parseTransaction {kind drop first i o retries : Byte} {t : Transaction}
    (parses : parseTransaction kind drop first i o retries = some t) : transOk t = true := by
  unfold parseTransaction at parses
  repeat' split at parses
  · rename_i ranges
    cases parses
    simp only [Bool.and_eq_true, decide_eq_true_eq] at ranges
    obtain ⟨⟨⟨counts, -⟩, window⟩, retry⟩ := ranges
    simp [transOk, counts, window, retry]
  · cases parses
  · cases parses

theorem takeSubmit_takes (tag kind drop first i o retries force : Byte) (values : List Word) (line : List Level)
    (s : State) : Takes .submit tag s (takeSubmit tag kind drop first i o retries force values line s) := by
  unfold takeSubmit
  split
  · exact .refused _
  · rename_i t f parses
    have ranges : transOk t = true := by
      unfold parseSubmit at parses
      split at parses
      · rename_i parsed _
        cases parses
        exact transOk_of_parseTransaction parsed
      · cases parses
    split
    · exact .refused _
    · rename_i fits
      split
      · exact .refused _
      · rename_i resources
        rw [not_or, Nat.not_le, Nat.not_le] at resources
        have joins := Changed.submitted (r := .submit)
          { ticket := nextTicket s.fen, trans := t, outputs := values, force := f } rfl ranges (Nat.le_of_not_lt fits)
          resources.1 resources.2 rfl
        dsimp only
        split
        · exact .answered joins (.refl _) (.reply _ _) (examineAfter_proceeds _ _)
        · exact .answered joins (.refl _) (.reply _ _) (.refl _)

theorem takeCancel_takes (tag : Byte) (ticket : Word) (line : List Level) (s : State) :
    Takes .cancel tag s (takeCancel tag ticket line s) := by
  have withdraws : Proceeds s
      (s.setFen { s.fen with queue := s.fen.queue.filter fun h => h.ticket != ticket }) := by
    refine .of_tickets ?tickets List.filter_sublist
    exact .append (.refl _) (List.filter_sublist.map _)
  unfold takeCancel
  dsimp only
  repeat' split
  · exact .answered .none withdraws (.reply _ _) (examineAfter_proceeds _ _)
  · exact .answered .none withdraws (.reply _ _) (.refl _)
  · exact .refused _
  · exact .refused _

theorem takeEventMask_takes (tag d v f : Byte) (s : State) : Takes .eventMask tag s (takeEventMask tag d v f s) := by
  unfold takeEventMask
  split
  · exact .answered (.masked _ _ _ rfl) (offerLatches_proceeds _ _) (.reply _ _) (.refl _)
  · exact .refused _

/-- The requests of SCM, DRM and RST, and those that LNK answers with data, only reply: the blocks they change hold
nothing of sessions, tickets or reports. -/
theorem ownerEffect_takes_of_store {c : Instr} {r : Request} {tag : Byte} {payload : List Byte}
    (stands : requestOf c = some (r, tag, payload))
    (store : r.owner = .scm ∨ r.owner = .drm ∨ r.owner = .rst ∨ r = .identify ∨ r = .status) (s : State) :
    Takes r tag s (ownerEffect c s) := by
  cases c <;> cases stands <;> simp [Request.owner] at store
  all_goals
    simp only [ownerEffect, takeIdentify, takeStatus, takeEntryAdd, takeEntrySet, takeEntryLoad, takeEntryRead,
      takeEntryFree, takeChainInsert, takeChainRemove, takeChainRead, takeScheduleLength, takeDropAttach,
      takeDropDetach, takeDropRead, takeDropClearService, takeSetConfig, takeSetRead]
    repeat' split
  all_goals exact .reply_same _ _

/-- What taking a request does: nothing for a RESET ALL that RESET_ENGINE leaves waiting, else `Takes`. -/
theorem ownerEffect_cases {c : Instr} {r : Request} {tag : Byte} {payload : List Byte}
    (stands : requestOf c = some (r, tag, payload)) (s : State) :
    ownerEffect c s = s ∨ Takes r tag s (ownerEffect c s) := by
  cases c
  case openSession => cases stands; exact .inr (takeOpen_takes ..)
  case closeSession => cases stands; exact .inr (takeClose_takes ..)
  case ackReports => cases stands; exact .inr (takeAckReports_takes ..)
  case resetEngine tag scope line =>
    cases stands
    by_cases all : scope = 1
    · exact .inl (if_pos all)
    · have is : ownerEffect (.resetEngine tag scope line) s = takeResetEngine tag scope line s := if_neg all
      exact .inr (is ▸ takeResetEngine_takes ..)
  case resetAll => cases stands; exact .inr (takeResetAll_takes ..)
  case busConfig => cases stands; exact .inr (takeBusConfig_takes ..)
  case start => cases stands; exact .inr (takeStart_takes ..)
  case halt => cases stands; exact .inr (takeHalt_takes ..)
  case quiet => cases stands; exact .inr (takeQuiet_takes ..)
  case wake => cases stands; exact .inr (takeWake_takes ..)
  case submit => cases stands; exact .inr (takeSubmit_takes ..)
  case cancel => cases stands; exact .inr (takeCancel_takes ..)
  case eventMask => cases stands; exact .inr (takeEventMask_takes ..)
  all_goals cases stands
  all_goals exact .inr (ownerEffect_takes_of_store rfl (by decide) s)

/-! ### What an event does to sessions, tickets and reports -/

/-- LNK after a character, or the end of a frame or of a line that was heard (9.2): a frame is taken, or the receiver, its
break mark and the count of bad frames change. -/
inductive Received (l : Link) : Link → Prop
  | frame (f : Frame) (rx : RxState) (begins : receiverOk l.receiver = true → receiverOk rx = true) :
    Received l (takeFrame f { l with receiver := rx, breakHold := false })
  | heard (rx : RxState) (hold : Bool) (bad : Nat)
    (begins : receiverOk l.receiver = true → receiverOk rx = true)
    (counted : l.badFrames ≤ Config.limit16 → bad ≤ Config.limit16) :
    Received l { l with receiver := rx, breakHold := hold, badFrames := bad }

theorem Received.counts (l : Link) (hold : Bool) :
    Received l { l with
      receiver := .hunting, breakHold := hold, badFrames := satAdd Config.limit16 l.badFrames 1 } :=
  .heard .hunting hold _ (fun _ => rfl) (fun _ => satAdd_le _ _ _)

theorem judgeFrame_received (bytes : List Byte) (l : Link) :
    Received l (judgeFrame bytes { l with receiver := .hunting, breakHold := false }) := by
  unfold judgeFrame
  dsimp only
  split
  · exact .frame _ .hunting fun _ => rfl
  · exact .counts l false

/-- A character that neither abandons nor completes a frame leaves the beginning of one (R153, R154). -/
theorem receiverOk_snoc {bytes : List Byte} {b : Byte} (begins : receiverOk (.collecting bytes) = true)
    (goesOn : abandons bytes b false = false) (notWhole : isComplete (bytes ++ [b]) = false) :
    receiverOk (.collecting (bytes ++ [b])) = true := by
  cases bytes with
  | nil =>
    simp only [abandons, Bool.false_or, List.isEmpty_nil, Bool.true_and, decide_eq_false_iff_not, Nat.not_lt] at goesOn
    simp [receiverOk, goesOn]
  | cons len rest =>
    simp only [receiverOk, Bool.and_eq_true, decide_eq_true_eq, List.length_cons] at begins
    simp only [isComplete, List.cons_append, List.length_cons, List.length_append, List.length_nil,
      beq_eq_false_iff_ne] at notWhole
    simp only [receiverOk, List.cons_append, Bool.and_eq_true, decide_eq_true_eq, List.length_cons, List.length_append,
      List.length_nil]
    omega

theorem receive_received (b : Byte) (framing : Bool) (l : Link) : Received l (receive b framing l) := by
  unfold receive
  dsimp only
  split
  · rename_i hunting
    split
    · exact .heard (.collecting []) false l.badFrames (fun _ => rfl) id
    · exact .heard l.receiver false l.badFrames id id
  · rename_i bytes collecting
    repeat' split
    · exact .counts l false
    · exact judgeFrame_received _ l
    · rename_i goesOn notWhole
      have noFraming : framing = false := by
        cases framing
        · rfl
        · simp [abandons] at goesOn
      subst noFraming
      exact .heard _ false l.badFrames
        (fun begins => receiverOk_snoc (collecting ▸ begins) (by simpa using goesOn) (by simpa using notWhole)) id

/-- The state when a session has ended and the halt claim is still to come (R173). -/
def ended (cause : EndCause) (s : State) : State :=
  ((s.setLink (linkEnd cause s.link)).setRep (repEnd s.rep)).setFen (fenEnd s.fen)

theorem sessionEnd_proceeds (cause : EndCause) (s : State) : Proceeds (ended cause s) (sessionEnd cause s) := by
  unfold sessionEnd
  dsimp only
  split
  · exact haltClaim_proceeds _
  · exact .refl _

/-- What an event does to sessions, tickets and reports. -/
inductive Happens (s : State) : State → Prop
  | proceeds {t : State} (proceeds : Proceeds s t) : Happens s t
  | powerOn (rate : LinkRate) :
    Happens s { State.reset with link := { Link.initial with rate := rate }, pending := s.pending }
  | received {l : Link} (received : Received s.link l) : Happens s (s.setLink l)
  | replyStarts (r : OutReply) (rest : List OutReply) (idle : s.link.ltx = .idle) (ready : s.link.outbox = r :: rest) :
    Happens s (s.setLink { s.link with ltx := .reply r, outbox := rest })
  | reportStarts (q : Queued) (idle : s.link.ltx = .idle) (sends : reportToSend s.link s.rep = some q) :
    Happens s (s.setLink (linkSendReport q s.link))
  | replyEnds (r : OutReply) (sent : s.link.ltx = .reply r) (request : r.origin = .request) :
    Happens s (s.setLink (linkSent r s.link))
  | shortEnds (r : OutReply) (sent : s.link.ltx = .reply r) (other : r.origin ≠ .request) :
    Happens s (s.setLink { s.link with ltx := .idle })
  | reportEnds (q : Queued) (counts : Bool) (sent : s.link.ltx = .report q counts) :
    Happens s (s.setLink { s.link with
      ltx := .idle,
      send := { s.link.send with
        position := if counts then s.link.send.position + 1 else s.link.send.position,
        timer := if s.link.send.path = .sending then resendTimer s.link.send.unacked s.link else s.link.send.timer } })
  | resends (runs : s.link.send.timer.isSome = true) : Happens s (s.setLink (linkResend s.link))
  | closes (r : OutReply) (sent : s.link.ltx = .reply r) (request : r.origin = .request) {t : State}
    (claims : Proceeds (ended .close (s.setLink (linkSent r s.link))) t) : Happens s t
  | silent {t : State} (claims : Proceeds (ended .silence s) t) : Happens s t

theorem eventEffect_happens (c : Instr) (s : State) : Happens s (eventEffect c s) := by
  have nothing : Happens s s := .proceeds (.refl s)
  cases c <;> simp only [eventEffect]
  case powerOn lr1 lr0 => exact .powerOn _
  case linkCharacterReceived b framing => exact .received (receive_received _ _ _)
  case linkFrameComplete b =>
    repeat' split
    · exact .received (judgeFrame_received _ _)
    · exact nothing
    · exact nothing
  case linkFrameAbandon b framing =>
    repeat' split
    · exact .received (.counts s.link false)
    · exact nothing
    · exact nothing
  case linkIdleGapExpiry =>
    split
    · exact .received (.counts s.link s.link.breakHold)
    · exact nothing
  case linkBreak =>
    split
    · exact .received (.counts s.link true)
    · exact .received (.heard s.link.receiver true s.link.badFrames id id)
  case frameStart line =>
    split
    · exact .proceeds ((Proceeds.hearAll line s).trans (frameStart_proceeds _))
    · exact nothing
  case quietBoundary =>
    split
    · exact .proceeds (quietBoundary_proceeds s)
    · exact nothing
  case settlingBoundary line =>
    repeat' split
    · exact .proceeds (settlingBeacon_proceeds line s)
    · exact .proceeds (endSettling_proceeds line s)
    · exact nothing
  case wakePulse line =>
    repeat' split
    · exact .proceeds (.trans .of_same (enterWaking_proceeds _ _))
    · exact .proceeds .of_same
    · exact nothing
  case broadcastFrameEnd =>
    split
    · exact .proceeds .of_same
    · exact nothing
  case broadcastGapEnd line =>
    split
    · exact .proceeds (.trans .of_same (afterBroadcast_proceeds _ _))
    · exact nothing
  case requestFrameEnd =>
    split
    · exact .proceeds .of_same
    · exact nothing
  case answerStartBit line =>
    split
    · exact .proceeds .of_same
    · exact nothing
  case answerDeadline line =>
    split
    · exact .proceeds .of_same
    · exact nothing
  case answerEnd line =>
    split
    · exact .proceeds (.trans .of_same (handService_proceeds _ _ _))
    · exact nothing
  case attemptEnd line held =>
    split
    · rename_i item _
      exact .proceeds (.trans .of_same (attemptEnded_proceeds _ _ _ item))
    · split
      · exact .proceeds (judgeNext_proceeds s)
      · exact nothing
    · exact nothing
  case txFrameStart =>
    split
    · rename_i idle
      split
      · rename_i r rest ready
        exact .replyStarts r rest idle ready
      · split
        · rename_i q sends
          exact .reportStarts q idle sends
        · exact nothing
    · exact nothing
  case replySent =>
    split
    · rename_i r sent
      split
      · rename_i request
        split
        · exact .closes r sent request (sessionEnd_proceeds _ _)
        · exact .replyEnds r sent request
      · rename_i short
        exact .shortEnds r sent (by simp [short])
      · rename_i abandoned
        exact .shortEnds r sent (by simp [abandoned])
    · exact nothing
  case reportFrameSent =>
    split
    · rename_i q counts sent
      exact .reportEnds q counts sent
    · exact nothing
  case resendTimeout =>
    split
    · rename_i runs
      exact .resends runs
    · exact nothing
  case silenceTimeout =>
    split
    · exact .silent (sessionEnd_proceeds _ _)
    · exact nothing
  all_goals exact nothing

/-! ### Invariants of sessions, tickets and reports -/

/-- A request of this code and tag waits at its owner. -/
def Waits (r : Request) (tag : Byte) (l : Link) : Prop :=
  ∃ p ∈ l.places, p.phase = .waiting ∧ p.tag = tag ∧ p.kind = r.code

theorem waits_of_itsTurn {r : Request} {tag : Byte} {payload : List Byte} {s : State}
    (turn : ItsTurn r tag payload s) : Waits r tag s.link := by
  obtain ⟨p, mem, waits⟩ := List.any_eq_true.mp (isWaiting_of_mayTake turn)
  simp only [isRequest, Bool.and_eq_true, beq_iff_eq] at waits
  obtain ⟨phase, ⟨tag_eq, kind⟩, -⟩ := waits
  exact ⟨p, mem, phase, tag_eq, kind⟩

/-- A request that waits is not deferred, so answering deferred ones leaves it. -/
theorem Waits.linkAnswer {r : Request} {tag : Byte} {l : Link} (sel : Request → Bool) (st : Status) (data : List Byte)
    (waits : Waits r tag l) : Waits r tag (linkAnswer sel st data l) := by
  obtain ⟨p, mem, phase, tag_eq, kind⟩ := waits
  refine ⟨p, List.mem_map.mpr ⟨p, mem, ?_⟩, phase, tag_eq, kind⟩
  simp [isDeferred, phase]

theorem Waits.proceeds {r : Request} {tag : Byte} {s t : State} (waits : Waits r tag s.link) (h : Proceeds s t) :
    Waits r tag t.link := h.link.keeps (fun sel st data _ => Waits.linkAnswer sel st data) waits

theorem Changed.places {r : Request} {s t : State} (h : Changed r s t) : t.link.places = s.link.places := by
  cases h <;> rfl

/-- What the work of the part, the taking of a request and an event keep, every step keeps. -/
theorem step_keeps_of {P : State → Prop} (queue : ∀ s q, P s → P { s with pending := q })
    (proceeds : ∀ s t, P s → Proceeds s t → P t)
    (changed : ∀ r tag s t, Waits r tag s.link → P s → Changed r s t → P t)
    (replied : ∀ r tag s t, Waits r tag s.link → P s → Replied r tag s t → P t)
    (happens : ∀ s t, P s → Happens s t → P t) {s t : State} (holds : P s) (next : step s = .next t) : P t := by
  refine step_keeps queue (fun c s t => exec_keeps ?arrival ?request ?event) holds next
  case arrival => exact fun f s holds => happens s _ holds (.received (.frame f s.link.receiver id))
  case request =>
    intro c r tag payload s stands turn holds
    have waits := waits_of_itsTurn turn
    rcases ownerEffect_cases stands s with same | ⟨s1, u, v, change, before, reply, afterwards⟩
    · rw [same]
      exact holds
    · have waits1 : Waits r tag s1.link := by
        rw [Waits, change.places]
        exact waits
      have at_s1 := changed r tag s s1 waits holds change
      have at_v := replied r tag u v (waits1.proceeds before) (proceeds s1 u at_s1 before) reply
      exact proceeds v _ at_v afterwards
  case event => exact fun c s _ holds => happens s _ holds (eventEffect_happens c s)

end Sys2Proof.Machine

namespace Sys2Proof.Machine

/-! ### Ticket numbers (R93) -/

theorem holdsTicket_iff (f : Fen) (n : Word) : holdsTicket f n = true ↔ n ∈ outstandingTickets f := by
  unfold holdsTicket outstandingTickets
  rw [Bool.or_eq_true, List.mem_append, or_comm]
  refine or_congr ?flying ?queued
  case queued => simp [List.any_eq_true, List.mem_map]
  case flying =>
    cases f.item with
    | none => simp
    | some it =>
      obtain ⟨source, retries, attempts, lastError⟩ := it
      cases source with
      | adHoc ticket mark =>
        cases mark
        · simp
        · show (ticket == n) = true ↔ n ∈ [ticket]
          rw [beq_iff_eq, List.mem_singleton, eq_comm]
      | periodic | probe => simp

theorem wordOf_toNat {n : Nat} (small : n < 65536) : (wordOf n).toNat = n := by
  simp [wordOf, BitVec.toNat_ofNat, Nat.mod_eq_of_lt small]

/-- With at most 16 outstanding tickets the next number is the first after the counter that none of them holds, and at
most 17 after it (R93). -/
theorem nextTicket_spec {f : Fen} (few : ticketCount f ≤ 16) :
    ∃ j, j < 17 ∧ nextTicket f = f.ticket + wordOf (j + 1) ∧ nextTicket f ∉ outstandingTickets f
      ∧ ∀ i, i < j → f.ticket + wordOf (i + 1) ∈ outstandingTickets f := by
  have held : ∀ n, (!holdsTicket f n) = true ↔ n ∉ outstandingTickets f := fun n => by
    rw [← holdsTicket_iff, Bool.not_eq_true', Bool.not_eq_true]
  have at_k : ∀ (k : Nat) (hk : k < ((List.range 17).map fun k => f.ticket + wordOf (k + 1)).length),
      ((List.range 17).map fun k => f.ticket + wordOf (k + 1))[k] = f.ticket + wordOf (k + 1) := by
    intro k hk
    simp
  cases found : ((List.range 17).map fun k => f.ticket + wordOf (k + 1)).find? fun n => !holdsTicket f n with
  | none =>
    exfalso
    have all_held : ((List.range 17).map fun k => f.ticket + wordOf (k + 1)) ⊆ outstandingTickets f := by
      intro n mem
      have := List.find?_eq_none.mp found n mem
      rwa [held, Classical.not_not] at this
    have distinct : ((List.range 17).map fun k => f.ticket + wordOf (k + 1)).Nodup := by
      refine List.pairwise_map.mpr (List.nodup_range.imp_of_mem fun {a b} ha hb ne same => ne ?_)
      have ha' : a < 17 := List.mem_range.mp ha
      have hb' : b < 17 := List.mem_range.mp hb
      have same' : wordOf (a + 1) = wordOf (b + 1) := by simpa using same
      have := congrArg BitVec.toNat same'
      rw [wordOf_toNat (by omega), wordOf_toNat (by omega)] at this
      omega
    have := distinct.length_le_of_subset all_held
    rw [← ticketCount_eq_length] at this
    simp at this
    omega
  | some n =>
    have next : nextTicket f = n := by rw [nextTicket, found, Option.getD_some]
    obtain ⟨free, j, hj, at_j, earlier⟩ := List.find?_eq_some_iff_getElem.mp found
    rw [at_k] at at_j
    refine ⟨j, by simpa using hj, next.trans at_j.symm, next ▸ (held n).mp free, fun i hi => ?_⟩
    have := earlier i hi
    rwa [at_k, Bool.not_eq_true', Bool.not_eq_false', holdsTicket_iff] at this

/-! ### Tickets and report places (R93, R94, R122) -/

/-- The places of the report queue and the outstanding tickets alone matter. -/
theorem TicketInv.congr {s t : State} (inv : TicketInv s) (fen : t.fen = s.fen)
    (shrinks : t.rep.queue.length ≤ s.rep.queue.length) : TicketInv t := by
  obtain ⟨limit, places, distinct, ranges⟩ := inv
  unfold TicketInv
  rw [fen]
  exact ⟨limit, by omega, distinct, ranges⟩

theorem TicketInv.proceeds {s t : State} (inv : TicketInv s) (h : Proceeds s t) : TicketInv t := by
  obtain ⟨limit, places, distinct, ranges⟩ := inv
  refine ⟨Nat.le_trans h.ticketCount_le limit, h.within places, distinct.sublist h.tickets, fun x mem => ?_⟩
  rw [h.config]
  exact ranges x (h.queue.subset mem)

/-- With no ticket, and the report queue within its places, nothing else is asked. -/
theorem ticketInv_of_none {s : State} (item : ∀ it n, s.fen.item = some it → it.source ≠ .adHoc n true)
    (queue : s.fen.queue = []) (reports : s.rep.queue.length ≤ Config.reportPlaces) : TicketInv s := by
  have none : outstandingTickets s.fen = [] := by rw [outstandingTickets_of_noTicket item, queue, List.map_nil]
  have count : ticketCount s.fen = 0 := by rw [ticketCount_eq_length, none, List.length_nil]
  refine ⟨by rw [count]; exact Nat.zero_le _, by rw [count]; exact reports, none ▸ List.nodup_nil, ?_⟩
  simp [queue]

/-- A new ticket: its number is free, and it takes the place that was kept for it (R93, R94). -/
theorem TicketInv.submitted {s : State} {h : AdHoc} (inv : TicketInv s) (fresh : h.ticket = nextTicket s.fen)
    (ranges : transOk h.trans = true) (fits : h.trans.cost ≤ s.fen.config.budget)
    (few : ticketCount s.fen < Config.ticketLimit)
    (places : s.rep.queue.length + ticketCount s.fen < Config.reportPlaces) :
    TicketInv (s.setFen { s.fen with queue := s.fen.queue ++ [h], ticket := h.ticket }) := by
  obtain ⟨-, -, distinct, queued⟩ := inv
  have joined : outstandingTickets { s.fen with queue := s.fen.queue ++ [h], ticket := h.ticket }
      = outstandingTickets s.fen ++ [h.ticket] := by simp [outstandingTickets]
  have count : ticketCount { s.fen with queue := s.fen.queue ++ [h], ticket := h.ticket } = ticketCount s.fen + 1 := by
    rw [ticketCount_eq_length, joined, List.length_append, ← ticketCount_eq_length, List.length_singleton]
  obtain ⟨-, -, -, free, -⟩ := nextTicket_spec (Nat.le_of_lt few)
  refine ⟨by rw [setFen_fen, count]; exact few, by rw [setFen_fen, count]; exact places, ?_, ?_⟩
  · rw [setFen_fen, joined, List.nodup_append]
    refine ⟨distinct, List.pairwise_singleton _ _, fun a mem b same => ?_⟩
    rw [List.mem_singleton.mp same, fresh]
    exact fun equal => free (equal ▸ mem)
  · intro x mem
    rcases List.mem_append.mp mem with old | new
    · exact queued x old
    · rw [List.mem_singleton.mp new]
      exact ⟨ranges, fits⟩

theorem TicketInv.changed {r : Request} {s t : State} (inv : TicketInv s) (h : Changed r s t) : TicketInv t := by
  cases h with
  | none => exact inv
  | opened => exact inv.congr rfl (Nat.le_refl _)
  | closing => exact inv.congr rfl (Nat.le_refl _)
  | acknowledged k => exact inv.congr rfl (by simp)
  | repeated => exact inv.congr rfl (Nat.le_refl _)
  | masked => exact inv.congr rfl (Nat.le_refl _)
  | submitted h fresh ranges fits few places => exact inv.submitted fresh ranges fits few places
  | configured c fit =>
    obtain ⟨limit, places, distinct, ranges⟩ := inv
    exact ⟨limit, places, distinct, fun x mem => ⟨(ranges x mem).1, fit x mem⟩⟩
  | reset => exact ticketInv_of_none (fun _ _ item => nomatch item) rfl (Nat.zero_le _)

/-- The item in progress has no ticket after its session (R106). -/
theorem ended_noTicket (cause : EndCause) (s : State) (it : Item) (n : Word) (item : (ended cause s).fen.item = some it) :
    it.source ≠ .adHoc n true := by
  intro source
  obtain ⟨it0, -, rfl⟩ := Option.map_eq_some_iff.mp (show s.fen.item.map clearMark = some it from item)
  unfold clearMark at source
  split at source
  · simp at source
  · rename_i periodic
    simp [periodic] at source
  · rename_i probe
    simp [probe] at source

/-- No ticket outlives its session (R106). -/
theorem ticketInv_ended (cause : EndCause) (s : State) : TicketInv (ended cause s) :=
  ticketInv_of_none (ended_noTicket cause s) rfl (Nat.zero_le _)

theorem TicketInv.happens {s t : State} (inv : TicketInv s) (h : Happens s t) : TicketInv t := by
  cases h with
  | proceeds h => exact inv.proceeds h
  | powerOn => exact ticketInv_of_none (fun _ _ item => nomatch item) rfl (Nat.zero_le _)
  | closes r sent request claims => exact (ticketInv_ended _ _).proceeds claims
  | silent claims => exact (ticketInv_ended _ _).proceeds claims
  | _ => exact inv.congr rfl (Nat.le_refl _)

/-- Settles O55: tickets end in the work of the part, each TICKET-DONE in the place of its ticket, and only SUBMIT adds
one, under a free number and within the limits. -/
theorem stepKeepsTicketPlaces : Obligations.StepKeepsTicketPlaces := by
  intro s t inv next
  refine step_keeps_of (fun _ _ inv => inv) (fun _ _ => TicketInv.proceeds) (fun _ _ _ _ _ => TicketInv.changed)
    (fun r tag s t _ inv replied => ?_) (fun _ _ => TicketInv.happens) inv next
  cases replied with
  | reply st data => exact inv.congr (reply_fen ..) (Nat.le_of_eq (congrArg (List.length ∘ Rep.queue) (reply_rep ..)))
  | defer => exact inv.congr (deferReply_fen ..) (Nat.le_of_eq (congrArg (List.length ∘ Rep.queue) (deferReply_rep ..)))

/-! ### The report send state (R164, R165, R168) -/

/-- The send state, the window, the session's state, LTX and the length of the report queue alone matter. -/
theorem SendInv.congr {s t : State} (inv : SendInv s) (send : t.link.send = s.link.send) (ltx : t.link.ltx = s.link.ltx)
    (window : t.link.session.window = s.link.session.window) (state : t.link.session.state = s.link.session.state)
    (grows : s.rep.queue.length ≤ t.rep.queue.length) : SendInv t := by
  obtain ⟨queued, rest⟩ := inv
  unfold SendInv
  rw [send, ltx, window, state]
  exact ⟨Nat.le_trans queued grows, rest⟩

theorem SendInv.window_le {s : State} (inv : SendInv s) : s.link.session.window ≤ 8 := by
  obtain ⟨-, -, window, -⟩ := inv
  exact window

theorem SendInv.closed {s : State} (inv : SendInv s) (isClosed : s.link.session.state = .closed) :
    s.link.send = .cleared := by
  obtain ⟨-, -, -, -, -, -, -, -, closed⟩ := inv
  exact closed isClosed

/-- In a CLOSED session no report frame on LTX counts. -/
theorem SendInv.noReport_of_closed {s : State} (inv : SendInv s) (isClosed : s.link.session.state = .closed) :
    countsOnLine s.link.ltx = false := by
  have cleared := inv.closed isClosed
  obtain ⟨-, -, -, -, onLine, -⟩ := inv
  refine Bool.eq_false_iff.mpr fun counts => ?_
  have := onLine counts
  rw [cleared] at this
  exact absurd this (by decide)

theorem SendInv.proceeds {s t : State} (inv : SendInv s) (h : Proceeds s t) : SendInv t := by
  obtain ⟨session, send, ltx⟩ := h.link.frame
  exact inv.congr send ltx (by rw [session]) (by rw [session]) h.reports.length_le

/-- The cleared send state is sound in every session (R164). -/
theorem sendInv_of_cleared {s : State} (cleared : s.link.send = .cleared) (window : s.link.session.window ≤ 8)
    (noReport : countsOnLine s.link.ltx = false) : SendInv s := by
  unfold SendInv
  simp [cleared, SendState.cleared, window, noReport]

/-- A report frame on the line that has been marked so counts no more. -/
theorem countsOnLine_ltxCounts_false (x : Ltx) : countsOnLine (ltxCounts false x) = false := by
  cases x <;> simp [ltxCounts, countsOnLine]

theorem countsOnLine_ltxCounts {still : Bool} {x : Ltx} (counts : countsOnLine (ltxCounts still x) = true) :
    countsOnLine x = true ∧ still = true := by
  cases x with
  | report q c => simpa [ltxCounts, countsOnLine] using counts
  | idle | reply => simp [ltxCounts, countsOnLine] at counts

/-- The resend timer, loaded for `u`, runs exactly while `u` is above 0 (R168). -/
theorem resendTimer_isSome (u : Nat) (l : Link) : (resendTimer u l).isSome = true ↔ 0 < u := by
  unfold resendTimer resendLoad
  split <;> simp [*]

/-- After an acknowledgement of `k` reports (R166). -/
theorem SendInv.acknowledged {s : State} (inv : SendInv s) (k : Nat) (sent : k ≤ s.link.send.unacked) :
    SendInv ((s.setLink (linkAck k s.link)).setRep { s.rep with queue := s.rep.queue.drop k }) := by
  obtain ⟨queued, inWindow, window, position, onLine, -, -, -, closed⟩ := inv
  refine ⟨?_, ?_, window, ?_, fun counts => ?_, ?_, fun _ => Nat.zero_le _, ?_, fun isClosed => ?_⟩
  · simp only [setRep_link, setLink_link, linkAck, setRep_rep, List.length_drop]
    omega
  · simp only [setRep_link, setLink_link, linkAck]
    omega
  · simp only [setRep_link, setLink_link, linkAck]
    split <;> omega
  · obtain ⟨counted, still⟩ := countsOnLine_ltxCounts counts
    simp only [Bool.and_eq_true, Bool.not_eq_true', decide_eq_true_eq] at still
    have := onLine counted
    simp only [setRep_link, setLink_link, linkAck, still.1]
    simp only [Bool.false_eq_true, if_false]
    omega
  · simp only [setRep_link, setLink_link, linkAck, resendTimer_isSome, and_true]
  · simp [linkAck]
  · have cleared := closed isClosed
    simp only [setRep_link, setLink_link, linkAck, cleared, SendState.cleared, resendTimer]
    simp

/-- After a repeat acknowledgement (R167). -/
theorem SendInv.repeated {s : State} (inv : SendInv s) : SendInv (s.setLink (linkRepeat s.link)) := by
  obtain ⟨queued, inWindow, window, -, -, -, -, -, closed⟩ := inv
  refine ⟨queued, inWindow, window, Nat.zero_le _, fun counts => ?_, ?_, fun _ => Nat.zero_le _, ?_,
    fun isClosed => ?_⟩
  · simp only [setLink_link, linkRepeat, countsOnLine_ltxCounts_false] at counts
    cases counts
  · simp only [setLink_link, linkRepeat, resendTimer_isSome, and_true]
  · simp [linkRepeat]
  · have cleared := closed isClosed
    simp only [setLink_link, linkRepeat, cleared, SendState.cleared, resendTimer]
    simp

theorem SendInv.changed {r : Request} {s t : State} (inv : SendInv s) (h : Changed r s t) : SendInv t := by
  cases h with
  | none => exact inv
  | opened w t a action closed window =>
    exact sendInv_of_cleared rfl window (inv.noReport_of_closed closed)
  | closing isOpen =>
    obtain ⟨queued, inWindow, window, position, onLine, timer, sending, stalled, -⟩ := inv
    exact ⟨queued, inWindow, window, position, onLine, timer, sending, stalled,
    fun isClosed => nomatch (isClosed : SessionState.closing = .closed)⟩
  | acknowledged k sent => exact inv.acknowledged k sent
  | repeated => exact inv.repeated
  | masked => exact inv.congr rfl rfl rfl rfl (Nat.le_refl _)
  | submitted => exact inv.congr rfl rfl rfl rfl (Nat.le_refl _)
  | configured => exact inv.congr rfl rfl rfl rfl (Nat.le_refl _)
  | reset => exact sendInv_of_cleared rfl inv.window_le (countsOnLine_ltxCounts_false _)

/-- A report frame begins, a first sending raising u (R165); the resend timer runs from then on (R168). -/
theorem SendInv.reportStarts {s : State} {q : Queued} (inv : SendInv s) (sends : reportToSend s.link s.rep = some q) :
    SendInv (s.setLink (linkSendReport q s.link)) := by
  obtain ⟨queued, inWindow, window, position, -, timer, sending, -, -⟩ := inv
  unfold reportToSend at sends
  split at sends
  case isFalse => cases sends
  case isTrue may =>
    obtain ⟨isOpen, path, resendOrFirst⟩ := may
    obtain ⟨inQueue, -⟩ := List.getElem?_eq_some_iff.mp sends
    have running : (linkSendReport q s.link).send.timer.isSome = true := by
      simp only [linkSendReport, resendLoad]
      split
      · assumption
      · rfl
    refine ⟨?_, ?_, window, ?_, fun _ => ?_, ?_, sending, fun stalled => ?_, fun isClosed => ?_⟩
    · simp only [setLink_link, linkSendReport, setLink_rep]
      split <;> omega
    · simp only [setLink_link, linkSendReport]
      split <;> omega
    · simp only [setLink_link, linkSendReport]
      split <;> omega
    · simp only [setLink_link, linkSendReport]
      split <;> omega
    · refine ⟨fun _ => ⟨?_, path⟩, fun _ => running⟩
      simp only [setLink_link, linkSendReport]
      split <;> omega
    · exact absurd (path.symm.trans stalled) (by decide)
    · exact absurd (isOpen.symm.trans isClosed) (by decide)

/-- A report frame ends: if it counts, the send position advances (R165). -/
theorem SendInv.reportEnds {s : State} {q : Queued} {counts : Bool} (inv : SendInv s)
    (sent : s.link.ltx = .report q counts) :
    SendInv (s.setLink { s.link with
      ltx := .idle,
      send := { s.link.send with
        position := if counts then s.link.send.position + 1 else s.link.send.position,
        timer := if s.link.send.path = .sending then resendTimer s.link.send.unacked s.link
          else s.link.send.timer } }) := by
  have closed := inv.closed
  have noReport := inv.noReport_of_closed
  obtain ⟨queued, inWindow, window, position, onLine, timer, sending, stalled, -⟩ := inv
  refine ⟨queued, inWindow, window, ?_, ?_, ?_, sending, stalled, fun isClosed => ?_⟩
  · simp only [setLink_link]
    split
    · rename_i counted
      exact onLine (by simp [sent, countsOnLine, counted])
    · exact position
  · simp [countsOnLine]
  · simp only [setLink_link]
    split
    · rename_i path
      simp only [resendTimer_isSome, path, and_true]
    · exact timer
  · have cleared := closed isClosed
    have notCounted : counts = false := by simpa [sent, countsOnLine] using noReport isClosed
    simp [cleared, SendState.cleared, notCounted, resendTimer]

/-- The resend timer expires: the reports are sent again, or the path stalls at the third expiry (R168). -/
theorem SendInv.resends {s : State} (inv : SendInv s) (runs : s.link.send.timer.isSome = true) :
    SendInv (s.setLink (linkResend s.link)) := by
  have closed := inv.closed
  obtain ⟨queued, inWindow, window, position, onLine, timer, sending, stalled, -⟩ := inv
  obtain ⟨some_sent, path⟩ := timer.mp runs
  have isOpen : s.link.session.state ≠ .closed := fun isClosed => by
    rw [closed isClosed] at some_sent
    exact absurd some_sent (by decide)
  have expiries := sending path
  by_cases again : s.link.send.resends + 1 < 3
  · have is : linkResend s.link = { s.link with
        send := { s.link.send with
          position := 0, resends := s.link.send.resends + 1, timer := resendTimer s.link.send.unacked s.link },
        ltx := ltxCounts false s.link.ltx } := if_pos again
    rw [is]
    refine ⟨queued, inWindow, window, Nat.zero_le _, fun counts => ?_, ?_, fun _ => Nat.le_of_lt_succ again,
      fun isStalled => absurd (path.symm.trans isStalled) (by decide), fun isClosed => absurd isClosed isOpen⟩
    · exact absurd counts (by simp [countsOnLine_ltxCounts_false])
    · simp only [setLink_link, resendTimer_isSome, path, and_true]
  · have is : linkResend s.link = { s.link with
        send := { s.link.send with resends := s.link.send.resends + 1, timer := none, path := .stalled } } :=
      if_neg again
    rw [is]
    refine ⟨queued, inWindow, window, position, onLine, ?_, fun isSending => ?_, fun _ => ⟨?_, some_sent⟩,
      fun isClosed => absurd isClosed isOpen⟩
    · simp
    · exact nomatch (isSending : PathState.stalled = .sending)
    · show s.link.send.resends + 1 = 3
      omega

/-- A session that has ended has the cleared send state, and a report frame on LTX counts for nothing (R173). -/
theorem sendInv_ended (cause : EndCause) {s : State} (window : s.link.session.window ≤ 8) :
    SendInv (ended cause s) := by
  refine sendInv_of_cleared rfl window ?_
  show countsOnLine (ltxAtEnd _ s.link.ltx) = false
  unfold ltxAtEnd
  repeat' split
  all_goals rfl

theorem SendInv.received {s : State} {l : Link} (inv : SendInv s) (h : Received s.link l) : SendInv (s.setLink l) := by
  cases h with
  | frame f rx begins =>
    rw [takeFrame_frame]
    exact inv.congr rfl rfl rfl rfl (Nat.le_refl _)
  | heard => exact inv.congr rfl rfl rfl rfl (Nat.le_refl _)

/-- LTX turns to something that is no report frame that counts. -/
theorem SendInv.setLtx {s : State} {l : Link} (inv : SendInv s) (noReport : countsOnLine l.ltx = false)
    (send : l.send = s.link.send := by rfl) (session : l.session = s.link.session := by rfl) :
    SendInv (s.setLink l) := by
  obtain ⟨queued, inWindow, window, position, -, rest⟩ := inv
  unfold SendInv
  simp only [setLink_link, setLink_rep, send, session, noReport]
  exact ⟨queued, inWindow, window, position, fun none => Bool.noConfusion none, rest⟩

theorem SendInv.happens {s t : State} (inv : SendInv s) (h : Happens s t) : SendInv t := by
  cases h with
  | proceeds h => exact inv.proceeds h
  | powerOn => exact sendInv_of_cleared rfl (Nat.zero_le _) rfl
  | received h => exact inv.received h
  | replyStarts => exact inv.setLtx rfl
  | reportStarts q idle sends => exact inv.reportStarts sends
  | replyEnds => exact inv.setLtx rfl
  | shortEnds => exact inv.setLtx rfl
  | reportEnds q counts sent => exact inv.reportEnds sent
  | resends runs => exact inv.resends runs
  | closes r sent request claims => 
    exact (sendInv_ended .close (s := s.setLink (linkSent r s.link)) inv.window_le).proceeds claims
  | silent claims => exact (sendInv_ended .silence inv.window_le).proceeds claims

/-- Settles O58: the work of the part lets the send state alone and only lengthens the report queue; what changes the
send state are acknowledgements, report frames, expiries, and the beginning and the end of a session. -/
theorem stepKeepsTheSendState : Obligations.StepKeepsTheSendState := by
  intro s t inv next
  refine step_keeps_of (fun _ _ inv => inv) (fun _ _ => SendInv.proceeds) (fun _ _ _ _ _ => SendInv.changed)
    (fun r tag s t _ inv replied => ?_) (fun _ _ => SendInv.happens) inv next
  cases replied with
  | reply st data => exact inv.congr (by simp [reply]) (by simp [reply]) (by simp [reply]) (by simp [reply]) (by simp)
  | defer => exact inv.congr rfl rfl rfl rfl (Nat.le_refl _)

end Sys2Proof.Machine

namespace Sys2Proof.Machine

/-! ### Phases and tags (R157, R161) -/

/-- Some places that were not ready become ready: their tags join those of the ready ones. -/
theorem readyTags_setPhase_ready {sel : Place → Bool} (ps : List Place)
    (notReady : ∀ p ∈ ps, sel p = true → p.phase ≠ .ready) :
    (((setPhase sel .ready ps).filter fun p => p.phase == .ready).map Place.tag).Perm
      (((ps.filter fun p => p.phase == .ready).map Place.tag) ++ (ps.filter sel).map Place.tag) := by
  induction ps with
  | nil => exact .refl _
  | cons p rest ih =>
    have ih := ih fun q mem => notReady q (List.mem_cons_of_mem p mem)
    by_cases chosen : sel p = true
    · have phase : (p.phase == .ready) = false := by simpa using notReady p List.mem_cons_self chosen
      have step : setPhase sel .ready (p :: rest) = { p with phase := .ready } :: setPhase sel .ready rest := by
        simp [setPhase, chosen]
      rw [step, List.filter_cons_of_pos (by rfl), List.filter_cons_of_neg (by simp [phase]),
        List.filter_cons_of_pos chosen, List.map_cons, List.map_cons]
      exact (ih.cons _).trans List.perm_middle.symm
    · have step : setPhase sel .ready (p :: rest) = p :: setPhase sel .ready rest := by simp [setPhase, chosen]
      rw [step, List.filter_cons_of_neg (p := sel) chosen, List.filter_cons, List.filter_cons]
      split
      · exact ih.cons _
      · exact ih

/-- Some places that were not ready change to another phase: the ready ones are the same. -/
theorem readyTags_setPhase_other {sel : Place → Bool} {ph : Phase} (other : ph ≠ .ready) (ps : List Place)
    (notReady : ∀ p ∈ ps, sel p = true → p.phase ≠ .ready) :
    (setPhase sel ph ps).filter (fun p => p.phase == .ready) = ps.filter fun p => p.phase == .ready := by
  induction ps with
  | nil => rfl
  | cons p rest ih =>
    have ih := ih fun q mem => notReady q (List.mem_cons_of_mem p mem)
    by_cases chosen : sel p = true
    · have phase : (p.phase == .ready) = false := by simpa using notReady p List.mem_cons_self chosen
      have step : setPhase sel ph (p :: rest) = { p with phase := ph } :: setPhase sel ph rest := by
        simp [setPhase, chosen]
      rw [step, List.filter_cons_of_neg (by simpa using other), List.filter_cons_of_neg (by simp [phase]), ih]
    · have step : setPhase sel ph (p :: rest) = p :: setPhase sel ph rest := by simp [setPhase, chosen]
      rw [step, List.filter_cons, List.filter_cons, ih]

/-- Of tags that are all different, one place has each. -/
theorem eq_of_tag_eq {ps : List Place} (distinct : (ps.map Place.tag).Nodup) {p q : Place} (hp : p ∈ ps) (hq : q ∈ ps)
    (same : p.tag = q.tag) : p = q := by
  induction ps with
  | nil => cases hp
  | cons x rest ih =>
    rw [List.map_cons, List.nodup_cons] at distinct
    obtain ⟨first, others⟩ := distinct
    have unlike : ∀ y ∈ rest, y.tag ≠ x.tag := fun y mem equal => first (equal ▸ List.mem_map_of_mem mem)
    rcases List.mem_cons.mp hp with rfl | inRest
    · rcases List.mem_cons.mp hq with equal | qInRest
      · exact equal.symm
      · exact absurd same.symm (unlike q qInRest)
    · rcases List.mem_cons.mp hq with rfl | qInRest
      · exact absurd same (unlike p inRest)
      · exact ih others inRest qInRest

theorem filter_tag_eq {ps : List Place} (distinct : (ps.map Place.tag).Nodup) {p : Place} (mem : p ∈ ps) :
    ps.filter (fun q => q.tag == p.tag) = [p] := by
  have only : ∀ q ∈ ps, (q.tag == p.tag) = decide (q = p) := fun q hq => by
    by_cases same : q.tag = p.tag
    · simp [eq_of_tag_eq distinct hq mem same]
    · have : q ≠ p := fun equal => same (by rw [equal])
      simp [same, this]
  rw [List.filter_congr only]
  have nodup : ps.Nodup := (List.pairwise_map.mp distinct).imp fun ne same => ne (congrArg Place.tag same)
  have := nodup.filter (fun q => decide (q = p))
  exact List.perm_singleton.mp ((List.perm_ext_iff_of_nodup this (List.pairwise_singleton _ p)).mpr fun q => by
    simp only [List.mem_filter, decide_eq_true_eq, List.mem_singleton]
    exact ⟨fun h => h.2, fun h => ⟨h ▸ mem, h⟩⟩)

/-! ### The capacities of LNK (R155 to R157, R161, R162) -/

theorem shortCount_eq (l : Link) :
    l.shortCount = ((pendingReplies l).filter fun r => r.origin == .short).length := by
  unfold Link.shortCount pendingReplies
  rw [List.filter_append, List.length_append, Nat.add_comm]
  congr 1
  cases l.ltx with
  | reply r =>
    by_cases short : r.origin = .short
    · simp [short]
    · simp [short]
  | idle | report => rfl

/-- The replies on their way, their answers being one for each ready request, and the places, the memory, the count of
bad frames and the receiver within their limits. -/
theorem PlacesInv.congr {l m : Link} (inv : PlacesInv l) (places : m.places = l.places := by rfl)
    (replies : pendingReplies m = pendingReplies l := by rfl) (memory : m.memory.length ≤ l.memory.length := by exact Nat.le_refl _)
    (bad : l.badFrames ≤ Config.limit16 → m.badFrames ≤ Config.limit16 := by exact id)
    (receiver : receiverOk l.receiver = true → receiverOk m.receiver = true := by exact id) : PlacesInv m := by
  obtain ⟨few, distinct, answered, short, remembered, counted, begins⟩ := inv
  unfold PlacesInv
  rw [shortCount_eq] at short ⊢
  have tags : answeredTags m = answeredTags l := by rw [answeredTags, answeredTags, replies]
  have ready : readyTags m = readyTags l := by rw [readyTags, readyTags, places]
  rw [places, replies, tags, ready]
  exact ⟨few, distinct, answered, short, Nat.le_trans memory remembered, bad counted, receiver begins⟩

theorem pendingReplies_ltxCounts (still : Bool) (l m : Link) (ltx : m.ltx = ltxCounts still l.ltx)
    (outbox : m.outbox = l.outbox) : pendingReplies m = pendingReplies l := by
  unfold pendingReplies
  rw [ltx, outbox]
  cases l.ltx <;> rfl

/-- Places change phase and replies join the ready ones: one for each place that became ready. -/
theorem PlacesInv.replied {l m : Link} (inv : PlacesInv l) {added : List OutReply}
    (tags : m.places.map Place.tag = l.places.map Place.tag) (outbox : m.outbox = l.outbox ++ added)
    (requests : ∀ r ∈ added, r.origin = .request)
    (ready : (readyTags m).Perm (readyTags l ++ added.map OutReply.tag)) (ltx : m.ltx = l.ltx)
    (memory : m.memory = l.memory) (bad : m.badFrames = l.badFrames) (receiver : m.receiver = l.receiver) :
    PlacesInv m := by
  obtain ⟨few, distinct, answered, short, remembered, counted, begins⟩ := inv
  have replies : pendingReplies m = pendingReplies l ++ added := by
    unfold pendingReplies
    rw [ltx, outbox, List.append_assoc]
  have all : added.filter (fun r => r.origin == .request) = added :=
    List.filter_eq_self.mpr fun r mem => by simp [requests r mem]
  have noShort : added.filter (fun r => r.origin == .short) = [] :=
    List.filter_eq_nil_iff.mpr fun r mem => by simp [requests r mem]
  have answers : answeredTags m = answeredTags l ++ added.map OutReply.tag := by
    rw [answeredTags, answeredTags, replies, List.filter_append, List.map_append, all]
  have count : m.places.length = l.places.length := by simpa using congrArg List.length tags
  unfold PlacesInv
  rw [count, tags, answers, memory, bad, receiver]
  rw [shortCount_eq] at short ⊢
  rw [replies, List.filter_append, noShort, List.append_nil]
  exact ⟨few, distinct, (answered.append_right _).trans ready.symm, short, remembered, counted, begins⟩

theorem PlacesInv.linkAnswer {l : Link} (inv : PlacesInv l) (sel : Request → Bool) (st : Status) (data : List Byte) :
    PlacesInv (linkAnswer sel st data l) := by
  refine inv.replied (linkAnswer_tags sel st data l) rfl (fun r mem => ?_) ?ready rfl rfl rfl rfl
  · obtain ⟨p, -, rfl⟩ := List.mem_map.mp mem
    rfl
  · have := readyTags_setPhase_ready (sel := isDeferred sel) l.places fun p _ deferred ready => by
      simp [isDeferred, ready] at deferred
    rw [List.map_map]
    exact this

theorem PlacesInv.proceeds {s t : State} (inv : PlacesInv s.link) (h : Proceeds s t) : PlacesInv t.link :=
  h.link.keeps (P := PlacesInv) (fun sel st data _ inv => PlacesInv.linkAnswer inv sel st data) inv

/-- The request that waits is the only one of its tag, and no reply is on its way to it. -/
theorem PlacesInv.waiting_only {r : Request} {tag : Byte} {l : Link} (inv : PlacesInv l) (waits : Waits r tag l) :
    ∃ p ∈ l.places, p.phase = .waiting ∧ p.tag = tag ∧ p.kind = r.code ∧ ∀ q ∈ l.places, q.tag = tag → q = p := by
  obtain ⟨p, mem, phase, tag_eq, kind⟩ := waits
  obtain ⟨-, distinct, -⟩ := inv
  exact ⟨p, mem, phase, tag_eq, kind, fun q hq same => eq_of_tag_eq distinct hq mem (same.trans tag_eq.symm)⟩

theorem PlacesInv.replies {r : Request} {tag : Byte} {s t : State} (waits : Waits r tag s.link) (inv : PlacesInv s.link)
    (h : Replied r tag s t) : PlacesInv t.link := by
  obtain ⟨p, mem, phase, rfl, -, only⟩ := inv.waiting_only waits
  have distinct := inv.2.1
  have notReady : ∀ q ∈ s.link.places, (q.tag == p.tag) = true → q.phase ≠ .ready := fun q hq same => by
    rw [only q hq (by simpa using same), phase]
    decide
  cases h with
  | reply st data =>
    have found : s.link.placeOf p.tag = some p := by
      unfold Link.placeOf
      cases at_p : s.link.places.find? fun q => q.tag == p.tag with
      | none =>
        have := List.find?_eq_none.mp at_p p mem
        simp at this
      | some q => rw [only q (List.mem_of_find?_eq_some at_p) (by simpa using List.find?_some at_p)]
    have is : linkReply p.tag st data s.link = { s.link with
        places := setPhase (fun q => q.tag == p.tag) .ready s.link.places,
        outbox := s.link.outbox ++ [replyTo p st data] } := by
      simp only [linkReply, found]
    show PlacesInv (linkReply p.tag st data s.link)
    rw [is]
    refine inv.replied (setPhase_tags _ _ _) rfl (fun r mem => by rw [List.mem_singleton.mp mem]; rfl) ?_ rfl rfl rfl rfl
    have := readyTags_setPhase_ready s.link.places notReady
    rw [filter_tag_eq distinct mem] at this
    exact this
  | defer =>
    refine inv.replied (added := []) (setPhase_tags _ _ _) (List.append_nil _).symm (fun _ mem => nomatch mem) ?_ rfl rfl
      rfl rfl
    simp only [deferReply, setLink_link, readyTags, List.map_nil, List.append_nil]
    rw [readyTags_setPhase_other (by decide) _ notReady]

theorem PlacesInv.changed {r : Request} {s t : State} (inv : PlacesInv s.link) (h : Changed r s t) :
    PlacesInv t.link := by
  cases h with
  | opened => exact inv.congr (bad := fun _ => Nat.zero_le _)
  | acknowledged => exact inv.congr (replies := pendingReplies_ltxCounts _ _ _ rfl rfl)
  | repeated => exact inv.congr (replies := pendingReplies_ltxCounts _ _ _ rfl rfl)
  | reset =>
    exact inv.congr (replies := pendingReplies_ltxCounts _ _ _ rfl rfl) (memory := Nat.zero_le _)
      (bad := fun _ => Nat.zero_le _)
  | _ => exact inv.congr

/-! ### A frame is taken within the capacities -/

theorem restartSilence_frame (l : Link) :
    (restartSilence l).places = l.places ∧ pendingReplies (restartSilence l) = pendingReplies l
      ∧ (restartSilence l).memory = l.memory ∧ (restartSilence l).badFrames = l.badFrames
      ∧ (restartSilence l).receiver = l.receiver ∧ (restartSilence l).outbox = l.outbox
      ∧ (restartSilence l).ltx = l.ltx ∧ (restartSilence l).session.state = l.session.state := by
  unfold restartSilence
  split <;> exact ⟨rfl, rfl, rfl, rfl, rfl, rfl, rfl, rfl⟩

/-- A reply joins the short-reply list while it has a place (R157). -/
theorem PlacesInv.pushShort {l : Link} (inv : PlacesInv l) (r : OutReply) : PlacesInv (pushShort r l) := by
  unfold Machine.pushShort
  split
  · rename_i room
    obtain ⟨few, distinct, answered, -, rest⟩ := inv
    refine ⟨few, distinct, ?_, ?_, rest⟩
    · have : answeredTags { l with outbox := l.outbox ++ [{ r with origin := .short }] } = answeredTags l := by
        simp [answeredTags, pendingReplies, List.filter_append]
      rw [this]
      exact answered
    · rw [shortCount_eq] at room ⊢
      have : (pendingReplies { l with outbox := l.outbox ++ [{ r with origin := .short }] }) =
          pendingReplies l ++ [{ r with origin := .short }] := by simp [pendingReplies]
      rw [this, List.filter_append, List.length_append]
      exact room
  · exact inv

/-- A frame takes a place: its tag is new, and it has a reply exactly when it is refused at once (R157 to R159). -/
theorem PlacesInv.acceptFrame {l : Link} (inv : PlacesInv l) (f : Frame) (new : l.placeOf f.tag = none)
    (room : l.places.length < Config.requestPlaces) : PlacesInv (acceptFrame f l) := by
  obtain ⟨-, distinct, answered, short, rest⟩ := inv
  have newTag : f.tag ∉ l.places.map Place.tag := by
    rintro mem
    obtain ⟨p, hp, same⟩ := List.mem_map.mp mem
    have := List.find?_eq_none.mp new p hp
    simp [same] at this
  have tags : ∀ p : Place, p.tag = f.tag → ((l.places ++ [p]).map Place.tag).Nodup := fun p same => by
    rw [List.map_append, List.map_singleton, same, List.nodup_append]
    exact ⟨distinct, List.pairwise_singleton _ _, fun a ha b hb => by
      rw [List.mem_singleton.mp hb]
      exact fun equal => newTag (equal ▸ ha)⟩
  unfold Machine.acceptFrame
  dsimp only
  split
  · refine ⟨by rw [List.length_append]; exact room, tags _ rfl, ?_, short, rest⟩
    have : readyTags { l with places := l.places ++ [{
        tag := f.tag, check := f.check, kind := f.kind, payload := f.payload, inOpen := l.session.state == .opened,
        phase := .waiting }] } = readyTags l := by simp [readyTags, List.filter_append]
    rw [this]
    exact answered
  · rename_i st _
    have accepted : PlacesInv { l with places := l.places ++ [{
        tag := f.tag, check := f.check, kind := f.kind, payload := f.payload, inOpen := l.session.state == .opened,
        phase := .waiting }] } := by
      refine ⟨by rw [List.length_append]; exact room, tags _ rfl, ?_, short, rest⟩
      have : readyTags { l with places := l.places ++ [{
          tag := f.tag, check := f.check, kind := f.kind, payload := f.payload, inOpen := l.session.state == .opened,
          phase := .waiting }] } = readyTags l := by simp [readyTags, List.filter_append]
      rw [this]
      exact answered
    refine accepted.replied (added := [_]) (by simp) rfl (fun r mem => by rw [List.mem_singleton.mp mem]; rfl) ?_ rfl rfl
      rfl rfl
    simp [readyTags, List.filter_append, replyTo]

theorem PlacesInv.takeFrame {l : Link} (inv : PlacesInv l) (f : Frame) : PlacesInv (takeFrame f l) := by
  obtain ⟨places, replies, memory, bad, receiver, -⟩ := restartSilence_frame l
  have inv' : PlacesInv (restartSilence l) :=
    inv.congr places replies (Nat.le_of_eq (congrArg List.length memory)) (by rw [bad]; exact id) (by rw [receiver]; exact id)
  unfold Machine.takeFrame
  dsimp only
  repeat' split
  · exact inv'.pushShort _
  · exact inv'
  · exact inv'.pushShort _
  · rename_i new room
    exact inv'.acceptFrame f new room
  · exact inv'.pushShort _

theorem PlacesInv.received {l m : Link} (inv : PlacesInv l) (h : Received l m) : PlacesInv m := by
  cases h with
  | frame f rx begins =>
    have hears : PlacesInv { l with receiver := rx, breakHold := false } := inv.congr (receiver := begins)
    exact hears.takeFrame f
  | heard rx hold bad begins counted => exact inv.congr (bad := counted) (receiver := begins)

/-! ### Replies are sent and sessions end within the capacities -/

/-- A request's reply has been sent: its place is free, and no other request had that tag (R157, R162). -/
theorem PlacesInv.linkSent {l : Link} {r : OutReply} (inv : PlacesInv l) (sent : l.ltx = .reply r)
    (request : r.origin = .request) : PlacesInv (linkSent r l) := by
  obtain ⟨few, distinct, answered, short, -, counted, begins⟩ := inv
  have replies : pendingReplies l = r :: l.outbox := by simp [pendingReplies, sent]
  have left : pendingReplies (Machine.linkSent r l) = l.outbox := rfl
  have readyDistinct : (readyTags l).Nodup := distinct.sublist (List.filter_sublist.map _)
  refine ⟨Nat.le_trans (List.length_filter_le _ _) few, distinct.sublist (List.filter_sublist.map _), ?_, ?_, ?_, counted,
    begins⟩
  · have answers : answeredTags l = r.tag :: answeredTags (Machine.linkSent r l) := by
      rw [answeredTags, answeredTags, replies, left, List.filter_cons_of_pos (by simp [request]), List.map_cons]
    have ready : readyTags (Machine.linkSent r l) = (readyTags l).erase r.tag := by
      rw [readyDistinct.erase_eq_filter]
      simp only [readyTags, Machine.linkSent, List.filter_map, List.filter_filter]
      congr 1
      apply List.filter_congr
      intro p _
      exact Bool.and_comm _ _
    rw [answers] at answered
    rw [ready]
    simpa using answered.erase r.tag
  · rw [shortCount_eq] at short ⊢
    rw [replies, List.filter_cons_of_neg (by simp [request])] at short
    rwa [left]
  · exact List.length_take_le Config.memoryPlaces _

/-- A reply that answers no outstanding request has been sent. -/
theorem PlacesInv.shortSent {l : Link} {r : OutReply} (inv : PlacesInv l) (sent : l.ltx = .reply r)
    (other : r.origin ≠ .request) : PlacesInv { l with ltx := .idle } := by
  obtain ⟨few, distinct, answered, short, rest⟩ := inv
  have replies : pendingReplies l = r :: l.outbox := by simp [pendingReplies, sent]
  refine ⟨few, distinct, ?_, ?_, rest⟩
  · rw [answeredTags, replies, List.filter_cons_of_neg (by simpa using other)] at answered
    exact answered
  · rw [shortCount_eq] at short ⊢
    rw [replies] at short
    exact Nat.le_trans ((List.sublist_cons_self r _).filter _).length_le short

/-- The replies on their way when the session has ended: those of abandoned requests are withdrawn, and the one on LTX
answers none any more (R173). -/
theorem answeredTags_linkEnd (cause : EndCause) (l : Link) :
    answeredTags (linkEnd cause l) =
      (answeredTags l).filter fun t => (l.places.filter fun p => !p.inOpen).any fun p => p.tag == t := by
  have outbox : ∀ kept : List Place, ((l.outbox.filter (replyKept kept)).filter fun r => r.origin == .request) =
      (l.outbox.filter fun r => r.origin == .request).filter fun r => kept.any fun p => p.tag == r.tag := by
    intro kept
    rw [List.filter_filter, List.filter_filter]
    apply List.filter_congr
    intro r _
    by_cases request : r.origin = .request
    · simp [replyKept, request]
    · have other : (r.origin == .request) = false := by simpa using request
      rw [other, Bool.false_and, Bool.and_false]
  unfold answeredTags pendingReplies
  rw [List.filter_append, List.filter_append, List.map_append, List.map_append, List.filter_append]
  congr 1
  · simp only [linkEnd]
    cases l.ltx with
    | idle => rfl
    | report => rfl
    | reply r =>
      by_cases request : r.origin = .request
      · by_cases kept : replyKept (l.places.filter fun p => !p.inOpen) r = true
        · have tagKept : ((l.places.filter fun p => !p.inOpen).any fun p => p.tag == r.tag) = true := by
            simpa [replyKept, request] using kept
          simp only [ltxAtEnd, kept, if_true, request, beq_self_eq_true, List.filter_cons_of_pos, List.filter_nil,
            List.map_cons, List.map_nil, tagKept]
        · have tagKept : ((l.places.filter fun p => !p.inOpen).any fun p => p.tag == r.tag) = false := by
            simpa [replyKept, request] using kept
          simp only [ltxAtEnd, kept, Bool.false_eq_true, if_false, request, beq_self_eq_true, List.filter_cons_of_pos,
            List.filter_nil, List.map_cons, List.map_nil]
          rw [List.filter_cons_of_neg Bool.false_ne_true, List.filter_nil, List.map_nil,
            List.filter_cons_of_neg (Bool.not_eq_true _ ▸ tagKept), List.filter_nil]
      · have kept : replyKept (l.places.filter fun p => !p.inOpen) r = true := by simp [replyKept, request]
        simp [ltxAtEnd, kept, request]
  · simp only [linkEnd, outbox]
    rw [List.filter_map]
    rfl

theorem PlacesInv.linkEnd {l : Link} (cause : EndCause) (inv : PlacesInv l) : PlacesInv (linkEnd cause l) := by
  obtain ⟨few, distinct, answered, short, -, counted, begins⟩ := inv
  refine ⟨Nat.le_trans (List.length_filter_le _ _) few, distinct.sublist (List.filter_sublist.map _), ?_, ?_,
    Nat.zero_le _, counted, begins⟩
  · have ready : readyTags (Machine.linkEnd cause l) =
        (readyTags l).filter fun t => (l.places.filter fun p => !p.inOpen).any fun p => p.tag == t := by
      simp only [readyTags, Machine.linkEnd, List.filter_map, List.filter_filter]
      congr 1
      apply List.filter_congr
      intro p mem
      have kept : ((l.places.filter fun p => !p.inOpen).any fun q => q.tag == p.tag) = !p.inOpen := by
        rw [Bool.eq_iff_iff, List.any_eq_true]
        constructor
        · rintro ⟨q, hq, same⟩
          obtain ⟨hq, notInOpen⟩ := List.mem_filter.mp hq
          rwa [← eq_of_tag_eq distinct hq mem (by simpa using same)]
        · exact fun notInOpen => ⟨p, List.mem_filter.mpr ⟨mem, notInOpen⟩, by simp⟩
      show (_ && _) = (_ && _)
      simp only [Function.comp, kept, Bool.and_comm]
    rw [ready, answeredTags_linkEnd]
    exact answered.filter _
  · refine Nat.le_trans ?_ short
    unfold Link.shortCount
    refine Nat.add_le_add ?_ ?_
    · exact (List.filter_sublist.filter _).length_le
    · simp only [Machine.linkEnd]
      cases l.ltx with
      | idle => exact Nat.le_refl _
      | report => exact Nat.le_refl _
      | reply r =>
        by_cases kept : replyKept (l.places.filter fun p => !p.inOpen) r = true
        · simp only [ltxAtEnd, kept, if_true, Nat.le_refl]
        · simp [ltxAtEnd, kept]

theorem PlacesInv.happens {s t : State} (inv : PlacesInv s.link) (h : Happens s t) : PlacesInv t.link := by
  cases h with
  | proceeds h => exact inv.proceeds h
  | powerOn =>
    exact ⟨Nat.zero_le _, List.nodup_nil, .refl _, Nat.zero_le _, Nat.zero_le _, Nat.zero_le _, rfl⟩
  | received h => exact inv.received h
  | replyStarts r rest idle ready => exact inv.congr (replies := by simp [pendingReplies, idle, ready])
  | reportStarts q idle => exact inv.congr (replies := by simp [pendingReplies, idle, linkSendReport])
  | replyEnds r sent request => exact inv.linkSent sent request
  | shortEnds r sent other => exact inv.shortSent sent other
  | reportEnds q counts sent => exact inv.congr (replies := by simp [pendingReplies, sent])
  | resends =>
    simp only [setLink_link, linkResend]
    split
    · exact inv.congr (replies := pendingReplies_ltxCounts _ _ _ rfl rfl)
    · exact inv.congr
  | closes r sent request claims =>
    have ended : PlacesInv (ended .close (s.setLink (Machine.linkSent r s.link))).link := (inv.linkSent sent request).linkEnd _
    exact ended.proceeds claims
  | silent claims =>
    have ended : PlacesInv (ended .silence s).link := inv.linkEnd _
    exact ended.proceeds claims

/-- Settles O60: each taking of a request adds one reply and makes one place ready, a frame joins under a new tag, and
what is sent or abandoned leaves with its place. -/
theorem stepKeepsLinkCapacities : Obligations.StepKeepsLinkCapacities := by
  intro s t inv next
  exact step_keeps_of (P := fun s => PlacesInv s.link) (fun _ _ inv => inv) (fun _ _ => PlacesInv.proceeds)
    (fun _ _ _ _ _ => PlacesInv.changed) (fun _ _ _ _ => PlacesInv.replies) (fun _ _ => PlacesInv.happens) inv next

end Sys2Proof.Machine

namespace Sys2Proof.Machine

/-! ### What a session governs (R106, R123, R127, R139, R159, R170, R173) -/

theorem requestOfKind_code (r : Request) : requestOfKind r.code = some r := by cases r <;> rfl

/-- Every place of `m` is a place of `l`, with a reply made ready since or not. -/
def PlacesFrom (l m : Link) : Prop :=
  ∀ p ∈ m.places, ∃ q ∈ l.places, p.inOpen = q.inOpen ∧ p.kind = q.kind ∧ (p.phase = q.phase ∨ p.phase = .ready)

theorem placesFrom_of_subset {l m : Link} (subset : m.places ⊆ l.places) : PlacesFrom l m :=
  fun p mem => ⟨p, subset mem, rfl, rfl, .inl rfl⟩

theorem placesFrom_of_same {l m : Link} (same : m.places = l.places := by rfl) : PlacesFrom l m :=
  placesFrom_of_subset (same ▸ List.Subset.refl _)

theorem placesFrom_of_ready {l m : Link} {sel : Place → Bool} (places : m.places = setPhase sel .ready l.places) :
    PlacesFrom l m := by
  intro p mem
  rw [places] at mem
  obtain ⟨q, hq, rfl⟩ := List.mem_map.mp mem
  refine ⟨q, hq, ?_⟩
  split
  · exact ⟨rfl, rfl, .inr rfl⟩
  · exact ⟨rfl, rfl, .inl rfl⟩

theorem PlacesFrom.trans {l m n : Link} (first : PlacesFrom l m) (second : PlacesFrom m n) : PlacesFrom l n := by
  intro p mem
  obtain ⟨q, hq, inOpen, kind, phase⟩ := second p mem
  obtain ⟨q', hq', inOpen', kind', phase'⟩ := first q hq
  refine ⟨q', hq', inOpen.trans inOpen', kind.trans kind', ?_⟩
  rcases phase with same | ready
  · rw [same]
    exact phase'
  · exact .inr ready

theorem Answered.placesFrom {l m : Link} (answered : Answered l m) : PlacesFrom l m :=
  answered.keeps (P := PlacesFrom l) (fun _ _ _ _ from_l => from_l.trans (placesFrom_of_ready rfl)) placesFrom_of_same

theorem linkReply_placesFrom (tag : Byte) (st : Status) (data : List Byte) (l : Link) :
    PlacesFrom l (linkReply tag st data l) := by
  unfold linkReply
  split
  · exact placesFrom_of_ready rfl
  · exact placesFrom_of_same

namespace SessionInv

variable {s t : State}

/-- The session stands, places only become ready, and in a CLOSED session REP and the tickets stay as they must be. -/
theorem of_session (inv : SessionInv s) (places : PlacesFrom s.link t.link)
    (closed : s.link.session.state = .closed → s.rep.queue = [] → ticketCount s.fen = 0 →
      t.rep.queue = [] ∧ ticketCount t.fen = 0
        ∧ t.rep.maskDrop = s.rep.maskDrop ∧ t.rep.maskService = s.rep.maskService ∧ t.rep.maskFrame = s.rep.maskFrame)
    (session : t.link.session = s.link.session := by rfl) : SessionInv t := by
  obtain ⟨whenClosed, whenOpen, accepted⟩ := inv
  unfold SessionInv
  rw [session]
  refine ⟨fun isClosed => ?_, whenOpen, fun p mem => ?_⟩
  · obtain ⟨queue, tickets, maskDrop, maskService, maskFrame, silence, abandoned⟩ := whenClosed isClosed
    obtain ⟨queue', tickets', maskDrop', maskService', maskFrame'⟩ := closed isClosed queue tickets
    refine ⟨queue', tickets', maskDrop'.trans maskDrop, maskService'.trans maskService, maskFrame'.trans maskFrame, silence,
      fun p mem => ?_⟩
    obtain ⟨q, hq, inOpen, -⟩ := places p mem
    rw [inOpen]
    exact abandoned q hq
  · obtain ⟨q, hq, inOpen, kind, phase⟩ := places p mem
    obtain ⟨waiting, deferred⟩ := accepted q hq
    unfold Place.anySession at waiting ⊢
    rw [inOpen, kind]
    rcases phase with same | ready
    · rw [same]
      exact ⟨waiting, deferred⟩
    · rw [ready]
      exact ⟨(nomatch ·), (nomatch ·)⟩

/-- LNK changes, and leaves the session. -/
theorem of_link (inv : SessionInv s) (places : PlacesFrom s.link t.link)
    (session : t.link.session = s.link.session := by rfl) (rep : t.rep = s.rep := by rfl) (fen : t.fen = s.fen := by rfl) :
    SessionInv t :=
  inv.of_session places (fun _ queue none => by rw [rep, fen]; exact ⟨queue, none, rfl, rfl, rfl⟩) session

theorem proceeds (inv : SessionInv s) (h : Proceeds s t) : SessionInv t :=
  inv.of_session h.link.placesFrom (fun isClosed queue none =>
    ⟨(h.closed isClosed none).trans queue, Nat.eq_zero_of_le_zero (none ▸ h.ticketCount_le), h.masks⟩) h.session

/-- A request of an open session that waits was accepted in one, which has not ended since. -/
theorem inOpen_of_needsSession {r : Request} (inv : SessionInv s) {p : Place} (mem : p ∈ s.link.places)
    (phase : p.phase = .waiting) (kind : p.kind = r.code) (needsSession : r.anySession = false) :
    p.inOpen = true ∧ s.link.session.state ≠ .closed := by
  obtain ⟨whenClosed, -, accepted⟩ := inv
  have inOpen : p.inOpen = true := by
    refine ((accepted p mem).1 phase).resolve_right fun any => ?_
    rw [Place.anySession, kind, requestOfKind_code] at any
    exact Bool.noConfusion (any.symm.trans needsSession)
  refine ⟨inOpen, fun isClosed => ?_⟩
  obtain ⟨-, -, -, -, -, -, abandoned⟩ := whenClosed isClosed
  exact Bool.noConfusion ((abandoned p mem).symm.trans inOpen)

theorem isOpen_of_needsSession {r : Request} {tag : Byte} (inv : SessionInv s) (waits : Waits r tag s.link)
    (needsSession : r.anySession = false) : s.link.session.state ≠ .closed := by
  obtain ⟨p, mem, phase, -, kind⟩ := waits
  exact (inv.inOpen_of_needsSession mem phase kind needsSession).2

/-- The session is open, before and after, and its places stand. -/
theorem of_open (inv : SessionInv s) (isOpen : t.link.session.state ≠ .closed)
    (silence : t.link.session.silence.isSome = true) (places : t.link.places = s.link.places := by rfl) :
    SessionInv t := by
  obtain ⟨-, -, accepted⟩ := inv
  exact ⟨fun isClosed => absurd isClosed isOpen, fun _ => silence, places ▸ accepted⟩

theorem changed {r : Request} {tag : Byte} (inv : SessionInv s) (waits : Waits r tag s.link) (h : Changed r s t) :
    SessionInv t := by
  have runs : s.link.session.state ≠ .closed → s.link.session.silence.isSome = true := inv.2.1
  cases h with
  | none => exact inv
  | opened => exact inv.of_open (fun h => nomatch h) rfl
  | closing isOpen => exact inv.of_open (fun h => nomatch h) (runs isOpen)
  | acknowledged k =>
    refine inv.of_session placesFrom_of_same fun _ queue none => ⟨?_, none, rfl, rfl, rfl⟩
    simp only [setRep_rep, queue, List.drop_nil]
  | repeated => exact inv.of_link placesFrom_of_same
  | masked d v f needsSession =>
    have isOpen := inv.isOpen_of_needsSession waits needsSession
    exact inv.of_open isOpen (runs isOpen)
  | submitted h fresh ranges fits few places needsSession =>
    have isOpen := inv.isOpen_of_needsSession waits needsSession
    exact inv.of_open isOpen (runs isOpen)
  | configured => exact inv.of_session placesFrom_of_same fun _ queue none => ⟨queue, none, rfl, rfl, rfl⟩
  | reset => 
    obtain ⟨whenClosed, whenOpen, accepted⟩ := inv
    refine ⟨fun isClosed => ?_, whenOpen, accepted⟩
    obtain ⟨-, -, -, -, -, silence, abandoned⟩ := whenClosed isClosed
    exact ⟨rfl, rfl, rfl, rfl, rfl, silence, abandoned⟩

theorem replied {r : Request} {tag : Byte} (inv : SessionInv s) (placesInv : PlacesInv s.link)
    (waits : Waits r tag s.link) (h : Replied r tag s t) : SessionInv t := by
  cases h with
  | reply st data => exact inv.of_link (linkReply_placesFrom tag st data s.link) (by simp [reply]) 
  | defer needsSession =>
    obtain ⟨p, mem, phase, -, kind, only⟩ := placesInv.waiting_only waits
    obtain ⟨inOpen, isOpen⟩ := inv.inOpen_of_needsSession mem phase kind needsSession
    obtain ⟨-, whenOpen, accepted⟩ := inv
    refine ⟨fun isClosed => absurd isClosed isOpen, whenOpen, fun q mem => ?_⟩
    obtain ⟨q0, hq, rfl⟩ := List.mem_map.mp mem
    by_cases same : q0.tag = tag
    · rw [if_pos (by simpa using same), only q0 hq same]
      exact ⟨(nomatch ·), fun _ => inOpen⟩
    · rw [if_neg (by simpa using same)]
      exact accepted q0 hq

/-! ### A frame is taken in a session -/

/-- A frame restarts the silence timer of an open session. -/
theorem restartSilence (inv : SessionInv s) : SessionInv (s.setLink (restartSilence s.link)) := by
  unfold Machine.restartSilence
  split
  · exact inv
  · rename_i isOpen
    exact inv.of_open isOpen rfl

theorem pushShort (inv : SessionInv s) (r : OutReply) : SessionInv (s.setLink (pushShort r s.link)) := by
  unfold Machine.pushShort
  split
  · exact inv.of_link placesFrom_of_same
  · exact inv

/-- A frame that is not refused was accepted in an open session, or may be taken in any (R159). -/
theorem accepted_of_not_refused {f : Frame} {l : Link} (notRefused : refusalOf f l = none) :
    (l.session.state == .opened) = true ∨ (requestOfKind f.kind).any Request.anySession = true := by
  unfold refusalOf at notRefused
  split at notRefused
  · cases notRefused
  · rename_i r kind
    rw [kind]
    by_cases opened : l.session.state = .opened
    · exact .inl (by simpa using opened)
    · by_cases any : r.anySession = true
      · exact .inr any
      · exfalso
        by_cases length : lengthOk r f.payload = true
        · simp [length, opened, any] at notRefused
        · simp [length] at notRefused

/-- A place more, sound in itself. -/
theorem addPlace {m : Link} (inv : SessionInv s) {p : Place} (places : m.places = s.link.places ++ [p])
    (session : m.session = s.link.session) (closed : s.link.session.state = .closed → p.inOpen = false)
    (waiting : p.phase = .waiting → p.inOpen = true ∨ p.anySession = true)
    (deferred : p.phase = .deferred → p.inOpen = true) : SessionInv (s.setLink m) := by
  obtain ⟨whenClosed, whenOpen, accepted⟩ := inv
  unfold SessionInv
  rw [setLink_link, session, places]
  refine ⟨fun isClosed => ?_, whenOpen, fun q mem => ?_⟩
  · obtain ⟨queue, tickets, maskDrop, maskService, maskFrame, silence, abandoned⟩ := whenClosed isClosed
    refine ⟨queue, tickets, maskDrop, maskService, maskFrame, silence, fun q mem => ?_⟩
    rcases List.mem_append.mp mem with old | new
    · exact abandoned q old
    · rw [List.mem_singleton.mp new]
      exact closed isClosed
  · rcases List.mem_append.mp mem with old | new
    · exact accepted q old
    · rw [List.mem_singleton.mp new]
      exact ⟨waiting, deferred⟩

theorem acceptFrame (inv : SessionInv s) (f : Frame) : SessionInv (s.setLink (acceptFrame f s.link)) := by
  have closed : s.link.session.state = .closed → (s.link.session.state == SessionState.opened) = false := fun isClosed => by
    rw [isClosed]
    rfl
  unfold Machine.acceptFrame
  dsimp only
  split
  · rename_i notRefused
    exact inv.addPlace rfl rfl closed (fun _ => accepted_of_not_refused notRefused) fun other => nomatch other
  · exact inv.addPlace rfl rfl closed (fun other => nomatch other) fun other => nomatch other

theorem takeFrame (inv : SessionInv s) (f : Frame) : SessionInv (s.setLink (takeFrame f s.link)) := by
  have restarted := inv.restartSilence
  unfold Machine.takeFrame
  dsimp only
  repeat' split
  · exact restarted.pushShort _
  · exact restarted
  · exact restarted.pushShort _
  · exact restarted.acceptFrame f
  · exact restarted.pushShort _

theorem received {l : Link} (inv : SessionInv s) (h : Received s.link l) : SessionInv (s.setLink l) := by
  cases h with
  | frame f rx begins =>
    have hears : SessionInv (s.setLink { s.link with receiver := rx, breakHold := false }) :=
      inv.of_link placesFrom_of_same
    exact hears.takeFrame f
  | heard => exact inv.of_link placesFrom_of_same

/-! ### The end of a session -/

theorem ended (cause : EndCause) (inv : SessionInv s) : SessionInv (ended cause s) := by
  obtain ⟨-, -, accepted⟩ := inv
  refine ⟨fun _ => ⟨rfl, ?_, rfl, rfl, rfl, rfl, fun p mem => ?_⟩, fun isOpen => absurd rfl isOpen,
    fun p mem => accepted p (List.mem_filter.mp mem).1⟩
  · rw [ticketCount_eq_length, outstandingTickets_of_noTicket (ended_noTicket cause s)]
    rfl
  · simpa using (List.mem_filter.mp mem).2

theorem happens (inv : SessionInv s) (h : Happens s t) : SessionInv t := by
  cases h with
  | proceeds h => exact inv.proceeds h
  | powerOn => 
    exact ⟨fun _ => ⟨rfl, rfl, rfl, rfl, rfl, rfl, fun _ mem => nomatch mem⟩, fun isOpen => absurd rfl isOpen,
      fun _ mem => nomatch mem⟩
  | received h => exact inv.received h
  | replyStarts => exact inv.of_link placesFrom_of_same
  | reportStarts => exact inv.of_link placesFrom_of_same
  | replyEnds => exact inv.of_link (placesFrom_of_subset List.filter_sublist.subset)
  | shortEnds => exact inv.of_link placesFrom_of_same
  | reportEnds => exact inv.of_link placesFrom_of_same
  | resends =>
    simp only [linkResend]
    split
    · exact inv.of_link placesFrom_of_same
    · exact inv.of_link placesFrom_of_same
  | closes r sent request claims =>
    have replied : SessionInv (s.setLink (linkSent r s.link)) :=
      inv.of_link (placesFrom_of_subset List.filter_sublist.subset)
    exact (replied.ended .close).proceeds claims
  | silent claims => exact (inv.ended .silence).proceeds claims

end SessionInv

/-- Settles O59: with the tags of outstanding requests all different, the request that an owner takes is the one that
waits, so that what needs a session happens in one. -/
theorem stepKeepsTheSessionRules : Obligations.StepKeepsTheSessionRules := by
  intro s t placesInv inv next
  have both : PlacesInv t.link ∧ SessionInv t := step_keeps_of (P := fun s => PlacesInv s.link ∧ SessionInv s)
    (fun _ _ inv => inv) (fun _ _ inv h => ⟨inv.1.proceeds h, inv.2.proceeds h⟩)
    (fun _ _ _ _ waits inv h => ⟨inv.1.changed h, inv.2.changed waits h⟩)
    (fun _ _ _ _ waits inv h => ⟨inv.1.replies waits h, inv.2.replied inv.1 waits h⟩)
    (fun _ _ inv h => ⟨inv.1.happens h, inv.2.happens h⟩) ⟨placesInv, inv⟩ next
  exact both.2

end Sys2Proof.Machine

namespace Sys2Proof.Machine

/-! ### Drop records (R73 to R75, R83) -/

/-- Threshold, interval, total and identity are in range in every state (R73, R75, R83). -/
def dropRanges (r : DropRec) : Prop :=
  1 ≤ r.threshold ∧ r.threshold ≤ 15 ∧ 1 ≤ r.interval ∧ r.interval ≤ 255 ∧ r.total ≤ Config.limit16
    ∧ r.identity.all identityOk = true

/-- The failure count, the due counter and the identity agree with the state (R73, R74). -/
def dropAgrees (r : DropRec) : Prop :=
  match r.state with
  | .off => r = DropRec.initial
  | .seeking => r.failures = 0 ∧ r.due = 0 ∧ r.identity.isNone = true
  | .online => r.failures = 0 ∧ r.due = 0 ∧ r.identity.isSome = true
  | .failing => 1 ≤ r.failures ∧ r.failures < r.threshold ∧ r.due = 0 ∧ r.identity.isSome = true
  | .quarantined => r.failures = r.threshold ∧ r.due ≤ r.interval ∧ r.identity.isSome = true

theorem dropOk_iff (r : DropRec) : dropOk r = true ↔ dropRanges r ∧ dropAgrees r := by
  unfold dropOk dropRanges dropAgrees
  rw [Bool.and_eq_true]
  refine and_congr ?ranges ?agrees
  case ranges => simp only [Bool.and_eq_true, decide_eq_true_eq, and_assoc]
  case agrees => cases r.state <;> simp [and_assoc]

theorem dropOk_initial : dropOk DropRec.initial = true := by decide

/-- A ready drop has an identity and no due counter, and one failure more is at most the threshold (R74, R77). -/
theorem dropAgrees.of_ready {r : DropRec} (agrees : dropAgrees r) (ready : r.state.ready = true) (low : 1 ≤ r.threshold) :
    r.identity.isSome = true ∧ r.due = 0 ∧ 1 ≤ (if r.state = .online then 1 else r.failures + 1)
      ∧ (if r.state = .online then 1 else r.failures + 1) ≤ r.threshold := by
  unfold dropAgrees at agrees
  cases state : r.state with
  | off | seeking | quarantined =>
    rw [state] at ready
    cases ready
  | online =>
    simp only [state] at agrees
    obtain ⟨-, due, known⟩ := agrees
    exact ⟨known, due, Nat.le_refl _, low⟩
  | failing =>
    simp only [state] at agrees
    obtain ⟨-, few, due, known⟩ := agrees
    exact ⟨known, due, Nat.succ_pos _, few⟩

/-- A failure takes a ready drop to FAILING below the threshold and to QUARANTINED at it (R77). -/
theorem dropOk_dropItem (success : Bool) {r : DropRec} (ok : dropOk r = true) : dropOk (dropItem success r).1 = true := by
  obtain ⟨ranges, agrees⟩ := (dropOk_iff r).mp ok
  obtain ⟨low, high, interval, interval', total, identity⟩ := ranges
  have counted : ∀ (st : DropState) (n due : Nat),
      dropRanges { r with state := st, failures := n, due := due, total := satAdd Config.limit16 r.total 1 } :=
    fun _ _ _ => ⟨low, high, interval, interval', satAdd_le _ _ _, identity⟩
  unfold dropItem
  split
  case isFalse => exact ok
  case isTrue ready =>
    obtain ⟨known, noDue, some_failures, few⟩ := agrees.of_ready ready (Nat.one_le_of_lt low)
    split
    · exact (dropOk_iff _).mpr ⟨⟨low, high, interval, interval', total, identity⟩, rfl, noDue, known⟩
    · dsimp only
      generalize (if r.state = .online then 1 else r.failures + 1) = n at some_failures few
      split
      · rename_i below
        exact (dropOk_iff _).mpr ⟨counted .failing n 0, some_failures, below, rfl, known⟩
      · rename_i reached
        exact (dropOk_iff _).mpr ⟨counted .quarantined n r.interval, Nat.le_antisymm few (Nat.le_of_not_lt reached),
          Nat.le_refl _, known⟩

theorem identityOk_of_goodProbe {r : AttemptResult} {i : Identity} (good : goodProbe r = some i) :
    identityOk i = true := by
  unfold goodProbe at good
  split at good
  · dsimp only at good
    split at good
    · rename_i range
      cases good
      simpa [identityOk] using range
    · cases good
  · cases good

/-- A good probe makes a SEEKING or QUARANTINED drop ONLINE, and a failed one restarts the due counter (R82 to R84). -/
theorem dropOk_dropProbe (result : AttemptResult) {r : DropRec} (ok : dropOk r = true) :
    dropOk (dropProbe (goodProbe result) r).1 = true := by
  obtain ⟨⟨low, high, interval, interval', total, -⟩, agrees⟩ := (dropOk_iff r).mp ok
  have online : ∀ i, goodProbe result = some i →
      dropOk { r with state := .online, failures := 0, due := 0, identity := some i } = true := fun i good =>
    (dropOk_iff _).mpr ⟨⟨low, high, interval, interval', total, by simpa using identityOk_of_goodProbe good⟩, rfl, rfl, rfl⟩
  unfold dropProbe
  split
  · rename_i good
    exact online _ good
  · rename_i good
    exact online _ good
  · rename_i state _
    obtain ⟨⟨_, _, _, _, _, identity⟩, _⟩ := (dropOk_iff r).mp ok
    simp only [dropAgrees, state] at agrees
    refine (dropOk_iff _).mpr ⟨⟨low, high, interval, interval', total, identity⟩, ?_⟩
    simp only [dropAgrees, state]
    exact ⟨agrees.1, Nat.le_refl _, agrees.2.2⟩
  · exact ok

/-- The due counter falls (R78). -/
theorem dropOk_dropFrameBegun {r : DropRec} (ok : dropOk r = true) : dropOk (dropFrameBegun r) = true := by
  obtain ⟨ranges, agrees⟩ := (dropOk_iff r).mp ok
  unfold dropFrameBegun
  split
  · rename_i state
    refine (dropOk_iff _).mpr ⟨ranges, ?_⟩
    simp only [dropAgrees, state] at agrees ⊢
    exact ⟨agrees.1, Nat.le_trans (Nat.sub_le _ _) agrees.2.1, agrees.2.2⟩
  · exact ok

/-- Outside OFF the SERVICE mark is free (R85, R90). -/
theorem dropOk_service {r : DropRec} (on : r.state ≠ .off) (service : Bool) (ok : dropOk r = true) :
    dropOk { r with service := service } = true := by
  obtain ⟨ranges, agrees⟩ := (dropOk_iff r).mp ok
  refine (dropOk_iff _).mpr ⟨ranges, ?_⟩
  unfold dropAgrees at agrees ⊢
  dsimp only
  split at agrees
  · rename_i off
    exact absurd off on
  all_goals
    rename_i state
    simpa only [state] using agrees

theorem dropOk_clearService {r : DropRec} (ok : dropOk r = true) : dropOk { r with service := false } = true := by
  by_cases off : r.state = .off
  · obtain ⟨-, agrees⟩ := (dropOk_iff r).mp ok
    simp only [dropAgrees, off] at agrees
    rw [agrees]
    exact dropOk_initial
  · exact dropOk_service off false ok

/-- RESET ENGINE leaves each drop OFF or SEEKING (R91). -/
theorem dropOk_dropResetEngine {r : DropRec} (ok : dropOk r = true) : dropOk (dropResetEngine r) = true := by
  obtain ⟨⟨low, high, interval, interval', total, -⟩, -⟩ := (dropOk_iff r).mp ok
  unfold dropResetEngine
  split
  · exact ok
  · exact (dropOk_iff _).mpr ⟨⟨low, high, interval, interval', total, rfl⟩, rfl, rfl, rfl⟩

/-! ### The drop manager keeps its records sound -/

namespace DropInv

variable {s : State}

theorem put {m n : Drm} {d : Fin Config.dropCount} {r : DropRec} (inv : DropInv m) (ok : dropOk r = true)
    (drops : n.drops = tput m.drops d r) : DropInv n := by
  intro e
  rw [drops, tget_tput]
  split
  · exact ok
  · exact inv e

theorem map {m n : Drm} {f : DropRec → DropRec} (inv : DropInv m) (keeps : ∀ {r}, dropOk r = true → dropOk (f r) = true)
    (drops : n.drops = tmap f m.drops) : DropInv n := by
  intro e
  rw [drops, tget_tmap]
  exact keeps (inv e)

theorem initial : DropInv .initial := by
  intro d
  rw [Drm.initial, tget_replicate]
  exact dropOk_initial

theorem applyDrop {d : Fin Config.dropCount} {out : DropRec × Option DropChange} (inv : DropInv s.drm)
    (ok : dropOk out.1 = true) : DropInv (applyDrop d out s).drm := by
  unfold Machine.applyDrop
  dsimp only
  split
  · exact inv.put (d := d) ok (by simp)
  · exact inv.put ok rfl

theorem dropOutcome (d : Fin Config.dropCount) (success : Bool) (inv : DropInv s.drm) :
    DropInv (dropOutcome d success s).drm := inv.applyDrop (dropOk_dropItem success (inv d))

theorem probeOutcome (r : AttemptResult) (inv : DropInv s.drm) : DropInv (probeOutcome r s).drm := by
  unfold Machine.probeOutcome
  dsimp only
  repeat' split
  · exact applyDrop inv (dropOk_dropProbe r (inv _))
  · exact inv
  · exact inv

theorem serviceHandover (d : Fin Config.dropCount) (flag : Bool) (inv : DropInv s.drm) :
    DropInv (serviceHandover d flag s).drm := by
  unfold Machine.serviceHandover
  dsimp only
  split
  · rename_i raised
    exact inv.put (d := d) (dropOk_service raised.2.2 true (inv d)) (by simp)
  · exact inv

theorem handService (d : Fin Config.dropCount) (r : AttemptResult) (inv : DropInv s.drm) :
    DropInv (handService d r s).drm := by
  unfold Machine.handService
  split
  · exact inv.serviceHandover d _
  · exact inv

/-! ### The frame engine keeps them sound -/

theorem frameStart (inv : DropInv s.drm) : DropInv (frameStart s).drm := by
  unfold Machine.frameStart frameBegun
  dsimp only
  refine DropInv.map ?_ dropOk_dropFrameBegun rfl
  split
  · simpa using inv
  · simpa using inv

theorem probeStage (inv : DropInv s.drm) : DropInv (probeStage s).drm := by
  unfold Machine.probeStage
  dsimp only
  repeat' split
  all_goals simpa [probeBegun, DropInv] using inv

theorem walkPeriodic (pairs : List PlanPair) (inv : DropInv s.drm) : DropInv (walkPeriodic pairs s).drm := by
  induction pairs generalizing s with
  | nil => exact probeStage (by simpa using inv)
  | cons p rest ih =>
    unfold Machine.walkPeriodic
    dsimp only
    repeat' split
    · exact ih inv
    · exact ih (by simpa using inv)
    · exact ih (by simpa using inv)
    · simpa using inv

theorem continueWalk (inv : DropInv s.drm) : DropInv (continueWalk s).drm := by
  unfold Machine.continueWalk
  split
  · exact inv
  · exact walkPeriodic _ inv
  · exact walkPeriodic _ inv
  · exact probeStage inv
  · simpa using inv
  · simpa using inv

theorem recordPeriodic (p : PlanPair) (d : Fin Config.dropCount) (r : AttemptResult) (inv : DropInv s.drm) :
    DropInv (recordPeriodic p d r s).drm := by
  unfold Machine.recordPeriodic
  split
  · exact inv.dropOutcome d _
  · have records : ∀ i b, DropInv (Machine.dropOutcome d r.success (putBody i b s)).drm := fun i b =>
      dropOutcome d _ (by simpa using inv)
    dsimp only
    split
    · simpa using records _ _
    · exact records _ _

theorem recordItem (it : Item) (d : Fin Config.dropCount) (r : AttemptResult) (inv : DropInv s.drm) :
    DropInv (recordItem it d r s).drm := by
  unfold Machine.recordItem
  split
  · exact inv.recordPeriodic _ d r
  · exact inv.probeOutcome r
  · unfold recordAdHoc
    dsimp only
    split
    · exact inv.dropOutcome d _
    · exact inv.dropOutcome d _

theorem afterItem (held : Bool) (inv : DropInv s.drm) : DropInv (afterItem held s).drm := by
  unfold Machine.afterItem
  repeat' split
  · simpa using inv
  · simpa using inv
  · exact inv.continueWalk
  · exact inv

theorem attemptEnded (it : Item) (c : Capture) (r : AttemptResult) (held : Bool) (inv : DropInv s.drm) :
    DropInv (attemptEnded it c r held s).drm := by
  unfold Machine.attemptEnded
  repeat' split
  · exact afterItem held (inv.recordItem it _ _)
  · exact inv
  · exact afterItem held (inv.recordItem it _ _)

theorem afterBroadcast (ended : Broadcast) (inv : DropInv s.drm) : DropInv (afterBroadcast ended s).drm := by
  unfold Machine.afterBroadcast
  repeat' split
  · exact inv
  · exact inv
  · simpa using inv
  · exact inv
  · simpa using inv
  · exact inv.frameStart
  · exact inv.continueWalk
  · exact inv
  · exact inv

theorem resetEngineNow (tag : Byte) (line : List Level) (inv : DropInv s.drm) :
    DropInv (resetEngineNow tag line s).drm := by
  have resets : DropInv (drmResetEngine s.drm) := inv.map dropOk_dropResetEngine rfl
  unfold Machine.resetEngineNow
  dsimp only
  split
  · simpa using resets
  · simpa using resets

/-! ### The requests of the drop manager -/

theorem takeDropAttach (tag drop threshold interval : Byte) (inv : DropInv s.drm) :
    DropInv (takeDropAttach tag drop threshold interval s).drm := by
  unfold Machine.takeDropAttach
  repeat' split
  · simpa using inv
  · simpa using inv
  · rename_i range
    obtain ⟨low, high, some_frames⟩ := range
    have ok : dropOk { DropRec.initial with
        state := .seeking, threshold := threshold.toNat, interval := interval.toNat } = true :=
      (dropOk_iff _).mpr ⟨⟨low, high, some_frames, Nat.le_of_lt_succ interval.isLt, Nat.zero_le _, rfl⟩, rfl, rfl, rfl⟩
    rw [reply_drm]
    exact inv.put ok rfl
  · simpa using inv

theorem takeDropDetach (tag drop : Byte) (inv : DropInv s.drm) : DropInv (takeDropDetach tag drop s).drm := by
  unfold Machine.takeDropDetach
  split
  · simpa using inv
  · rw [reply_drm]
    exact inv.put dropOk_initial rfl

theorem takeDropClearService (tag drop : Byte) (inv : DropInv s.drm) :
    DropInv (takeDropClearService tag drop s).drm := by
  unfold Machine.takeDropClearService
  split
  · simpa using inv
  · rw [reply_drm]
    exact inv.put (dropOk_clearService (inv _)) rfl

theorem ownerEffect {c : Instr} {r : Request} {tag : Byte} {payload : List Byte}
    (stands : requestOf c = some (r, tag, payload)) (inv : DropInv s.drm) : DropInv (ownerEffect c s).drm := by
  cases c <;> cases stands <;> simp only [Machine.ownerEffect]
  case dropAttach => exact inv.takeDropAttach _ _ _ _
  case dropDetach => exact inv.takeDropDetach _ _
  case dropClearService => exact inv.takeDropClearService _ _
  case resetAll => simpa [takeResetAll, resetAllBlocks] using DropInv.initial
  case resetEngine scope line =>
    split
    · exact inv
    · unfold takeResetEngine
      split
      · exact inv.resetEngineNow _ line
      · simpa using inv
  case start line =>
    unfold takeStart
    repeat' split
    · exact frameStart (by simpa using inv)
    all_goals simpa using inv
  all_goals
    simp only [takeOpen, takeClose, takeIdentify, takeStatus, takeAckReports, takeEntryAdd, takeEntrySet, takeEntryLoad,
      takeEntryRead, takeEntryFree, takeChainInsert, takeChainRemove, takeChainRead, takeScheduleLength, takeBusConfig,
      takeHalt, takeQuiet, takeWake, takeSubmit, takeCancel, takeDropRead, takeSetConfig, takeSetRead, takeEventMask]
    repeat' split
  all_goals simpa using inv

theorem eventEffect (c : Instr) (inv : DropInv s.drm) : DropInv (eventEffect c s).drm := by
  cases c <;> simp only [Machine.eventEffect]
  case powerOn => exact DropInv.initial
  case frameStart line =>
    split
    · exact frameStart (by simpa using inv)
    · exact inv
  case settlingBoundary line =>
    repeat' split
    · simpa using inv
    · exact frameStart (by simpa using inv)
    · exact inv
  case broadcastGapEnd line =>
    split
    · exact afterBroadcast _ (by simpa using inv)
    · exact inv
  case answerEnd line =>
    split
    · exact handService _ _ (by simpa using inv)
    · exact inv
  case attemptEnd line held =>
    split
    · exact attemptEnded _ _ _ _ (by simpa using inv)
    · split
      · exact continueWalk inv
      · exact inv
    · exact inv
  all_goals
    repeat' split
  all_goals simpa using inv

end DropInv

/-- Settles O57: each change of a drop record keeps its fields in agreement with its state. -/
theorem stepKeepsDropRecords : Obligations.StepKeepsDropRecords := by
  intro s t inv next
  exact step_keeps (P := fun s => DropInv s.drm) (fun _ _ inv => inv)
    (fun _ _ _ => exec_keeps (P := fun s => DropInv s.drm) (fun _ _ inv => inv)
      (fun _ _ _ _ _ stands _ inv => DropInv.ownerEffect stands inv) (fun c _ _ inv => DropInv.eventEffect c inv)) inv next

end Sys2Proof.Machine

namespace Sys2Proof.Machine

/-! ### Entries, and what the walk records in them (R4, R5) -/

/-- The counts of an entry are within 16 bits (R4). -/
def countsInRange (b : EntryBody) : Prop :=
  b.done ≤ Config.limit16 ∧ b.failed ≤ Config.limit16 ∧ b.skipped ≤ Config.limit16 ∧ b.notReady ≤ Config.limit16

theorem bodyOk_iff (b : EntryBody) :
    bodyOk b = true ↔ transOk b.trans = true ∧ b.outputs.length = b.trans.outCount ∧ countsInRange b := by
  simp [bodyOk, countsInRange, and_assoc]

/-- What an outcome does to an entry's contents: the counts and the last outcome change, nothing else (R4). -/
def Counted (b c : EntryBody) : Prop :=
  c.trans = b.trans ∧ c.route = b.route ∧ c.outputs = b.outputs ∧ c.linkCount = b.linkCount
    ∧ (countsInRange b → countsInRange c)

theorem Counted.refl (b : EntryBody) : Counted b b := ⟨rfl, rfl, rfl, rfl, id⟩

theorem Counted.trans {b c d : EntryBody} (first : Counted b c) (second : Counted c d) : Counted b d := by
  obtain ⟨t, r, o, l, counts⟩ := first
  obtain ⟨t', r', o', l', counts'⟩ := second
  exact ⟨t'.trans t, r'.trans r, o'.trans o, l'.trans l, counts' ∘ counts⟩

theorem counted_bodyNotReady (b : EntryBody) : Counted b (bodyNotReady b) :=
  ⟨rfl, rfl, rfl, rfl, fun ⟨done, failed, skipped, _⟩ => ⟨done, failed, skipped, satAdd_le _ _ _⟩⟩

theorem counted_bodySkipped (b : EntryBody) : Counted b (bodySkipped b) :=
  ⟨rfl, rfl, rfl, rfl, fun ⟨done, failed, _, notReady⟩ => ⟨done, failed, satAdd_le _ _ _, notReady⟩⟩

theorem counted_bodyOutcome (r : AttemptResult) (b : EntryBody) : Counted b (bodyOutcome r b) := by
  cases r with
  | valid =>
    exact ⟨rfl, rfl, rfl, rfl, fun ⟨_, failed, skipped, notReady⟩ => ⟨satAdd_le _ _ _, failed, skipped, notReady⟩⟩
  | error =>
    exact ⟨rfl, rfl, rfl, rfl, fun ⟨done, _, skipped, notReady⟩ => ⟨done, satAdd_le _ _ _, skipped, notReady⟩⟩

/-- What the walk does to SCM: outcomes are counted in entries, and all else stands. -/
def Records (m n : Scm) : Prop :=
  n.chains = m.chains ∧ n.schedLen = m.schedLen
    ∧ ∀ i, tget n.entries i = tget m.entries i
      ∨ ∃ b c, (tget m.entries i).body = some b ∧ Counted b c ∧ tget n.entries i = { tget m.entries i with body := some c }

theorem Records.refl (m : Scm) : Records m m := ⟨rfl, rfl, fun _ => .inl rfl⟩

theorem Records.trans {m n o : Scm} (first : Records m n) (second : Records n o) : Records m o := by
  obtain ⟨chains, len, entries⟩ := first
  obtain ⟨chains', len', entries'⟩ := second
  refine ⟨chains'.trans chains, len'.trans len, fun i => ?_⟩
  rcases entries i with same | ⟨b, c, body, counted, is⟩ <;> rcases entries' i with same' | ⟨b', c', body', counted', is'⟩
  · exact .inl (same'.trans same)
  · rw [same] at body' is'
    exact .inr ⟨b', c', body', counted', is'⟩
  · exact .inr ⟨b, c, body, counted, same'.trans is⟩
  · rw [is] at body' is'
    obtain rfl := Option.some.inj body'
    exact .inr ⟨b, c', body, counted.trans counted', is'⟩

theorem Records.of_eq {m n : Scm} (same : n = m) : Records m n := same ▸ .refl m

theorem putBody_records {i : Fin Config.entryCount} {b c : EntryBody} {s : State}
    (body : (tget s.scm.entries i).body = some b) (counted : Counted b c) : Records s.scm (putBody i c s).scm := by
  refine ⟨rfl, rfl, fun j => ?_⟩
  simp only [putBody, setScm_scm, tget_tput]
  split
  · rename_i same
    subst same
    exact .inr ⟨b, c, body, counted, rfl⟩
  · exact .inl rfl

theorem body_of_pairBody {m : Scm} {p : PlanPair} {b : EntryBody} (pair : pairBody m p = some b) :
    (tget m.entries p.index).body = some b := by
  unfold pairBody at pair
  dsimp only at pair
  split at pair
  · exact pair
  · cases pair

theorem walkPeriodic_records (pairs : List PlanPair) (s : State) : Records s.scm (walkPeriodic pairs s).scm := by
  induction pairs generalizing s with
  | nil => exact .of_eq (by simp [walkPeriodic])
  | cons p rest ih =>
    unfold walkPeriodic
    dsimp only
    repeat' split
    · exact ih _
    · rename_i pair _
      exact (putBody_records (body_of_pairBody pair) (counted_bodyNotReady _)).trans (ih _)
    · rename_i pair _ _
      exact (putBody_records (body_of_pairBody pair) (counted_bodySkipped _)).trans (ih _)
    · exact .of_eq (by simp)

theorem continueWalk_records (s : State) : Records s.scm (continueWalk s).scm := by
  unfold continueWalk
  split
  · exact .refl _
  · exact walkPeriodic_records _ _
  · exact walkPeriodic_records _ _
  · exact .of_eq (by simp)
  · exact .of_eq (by simp)
  · exact .of_eq (by simp)

theorem recordPeriodic_records (p : PlanPair) (d : Fin Config.dropCount) (r : AttemptResult) (s : State) :
    Records s.scm (recordPeriodic p d r s).scm := by
  unfold recordPeriodic
  split
  · exact .of_eq (by simp)
  · rename_i b pair
    have records := putBody_records (s := s) (body_of_pairBody pair) (counted_bodyOutcome r b)
    dsimp only
    split
    · exact records.trans (.of_eq (by simp))
    · exact records.trans (.of_eq (by simp))

theorem recordItem_records (it : Item) (d : Fin Config.dropCount) (r : AttemptResult) (s : State) :
    Records s.scm (recordItem it d r s).scm := by
  unfold recordItem
  split
  · exact recordPeriodic_records _ _ _ _
  · exact .of_eq (by simp)
  · exact .of_eq (by simp)

theorem afterItem_records (held : Bool) (s : State) : Records s.scm (afterItem held s).scm := by
  unfold afterItem
  repeat' split
  · exact .of_eq (by simp)
  · exact .of_eq (by simp)
  · exact continueWalk_records s
  · exact .refl _

theorem attemptEnded_records (it : Item) (c : Capture) (r : AttemptResult) (held : Bool) (s : State) :
    Records s.scm (attemptEnded it c r held s).scm := by
  have ends := (recordItem_records it c.drop r s).trans (afterItem_records held _)
  unfold attemptEnded
  repeat' split
  · exact ends
  · exact .refl _
  · exact ends

theorem afterBroadcast_records (ended : Broadcast) (s : State) : Records s.scm (afterBroadcast ended s).scm := by
  unfold afterBroadcast
  repeat' split
  case _ => exact .refl _
  case _ => exact .refl _
  case _ => exact .of_eq (by simp)
  case _ => exact .refl _
  case _ => exact .of_eq (by simp)
  case _ => exact .of_eq (by simp)
  case _ => exact continueWalk_records s
  case _ => exact .refl _
  case _ => exact .refl _

/-- Of SCM an event other than POWER_ON changes at most what outcomes are counted in. -/
theorem eventEffect_records (c : Instr) (s : State) :
    Records s.scm (eventEffect c s).scm ∨ (eventEffect c s).scm = .initial := by
  cases c <;> simp only [eventEffect]
  case powerOn => exact .inr rfl
  case broadcastGapEnd line =>
    refine .inl ?_
    split
    · exact .trans (.of_eq (by simp)) (afterBroadcast_records _ _)
    · exact .refl _
  case attemptEnd line held =>
    refine .inl ?_
    split
    · exact .trans (.of_eq (by simp)) (attemptEnded_records _ _ _ _ _)
    · split
      · exact continueWalk_records _
      · exact .refl _
    · exact .refl _
  all_goals
    refine .inl (.of_eq ?_)
    repeat' split
  all_goals simp

/-! ### The frame table (R5, R14, R15) -/

theorem countP_change {α : Type} [DecidableEq α] {l : List α} (distinct : l.Nodup) {k : α} (mem : k ∈ l) {p q : α → Bool}
    (same : ∀ x, x ≠ k → q x = p x) : l.countP q + (p k).toNat = l.countP p + (q k).toNat := by
  have perm := List.perm_cons_erase mem
  have rest : (l.erase k).countP q = (l.erase k).countP p :=
    List.countP_congr fun x hx => by rw [same x (List.Nodup.mem_erase_iff distinct |>.mp hx).1]
  rw [perm.countP_eq q, perm.countP_eq p, List.countP_cons, List.countP_cons, rest]
  cases p k <;> cases q k <;> simp

/-- With one chain replaced, an index is in as many chains as before but for that one. -/
theorem chainsHolding_putChain (m : Scm) (k : Fin Config.slotCount) (c : List (Fin Config.entryCount))
    (i : Fin Config.entryCount) :
    chainsHolding { m with chains := tput m.chains k c } i + ((tget m.chains k).contains i).toNat =
      chainsHolding m i + (c.contains i).toNat := by
  have := countP_change (List.nodup_finRange Config.slotCount) (List.mem_finRange k)
    (p := fun j => (tget m.chains j).contains i) (q := fun j => (tget (tput m.chains k c) j).contains i)
    (fun j other => by rw [tget_tput_ne _ _ (Ne.symm other)])
  rw [tget_tput_self] at this
  exact this

theorem chainsHolding_congr {m n : Scm} (chains : n.chains = m.chains) (i : Fin Config.entryCount) :
    chainsHolding n i = chainsHolding m i := by
  unfold chainsHolding
  rw [chains]

/-- An entry of the schedule is sound: its fields are in range, and its link count is the number of chains that hold it,
none when it is FREE. -/
def entryOk (e : Entry) (holding : Nat) : Prop :=
  (e.body.all fun b => bodyOk b) = true ∧ (e.body.all fun b => b.linkCount == holding) = true
    ∧ (e.body = none → holding = 0)

theorem entryOk_free {e : Entry} {holding : Nat} (free : e.body = none) : entryOk e holding ↔ holding = 0 := by
  simp [entryOk, free]

theorem entryOk_allocated {e : Entry} {b : EntryBody} {holding : Nat} (body : e.body = some b) :
    entryOk e holding ↔ bodyOk b = true ∧ b.linkCount = holding := by
  simp [entryOk, body]

theorem scheduleInv_iff (m : Scm) :
    ScheduleInv m ↔
      (∀ k, (tget m.chains k).Nodup ∧ (tget m.chains k).length ≤ Config.chainLimit)
      ∧ (∀ i, entryOk (tget m.entries i) (chainsHolding m i)) ∧ isSchedLen m.schedLen = true := Iff.rfl

namespace ScheduleInv

variable {m n : Scm} {i : Fin Config.entryCount} {b : EntryBody}

theorem records (inv : ScheduleInv m) (h : Records m n) : ScheduleInv n := by
  obtain ⟨chainsOk, entriesOk, lenOk⟩ := inv
  obtain ⟨chains, len, entries⟩ := h
  refine (scheduleInv_iff n).mpr ⟨chains ▸ chainsOk, fun i => ?_, len ▸ lenOk⟩
  have before : entryOk (tget m.entries i) (chainsHolding m i) := entriesOk i
  rw [chainsHolding_congr chains]
  rcases entries i with same | ⟨b, c, body, ⟨trans, -, outputs, links, counts⟩, is⟩
  · rw [same]
    exact before
  · obtain ⟨ok, linked⟩ := (entryOk_allocated body).mp before
    obtain ⟨transOk, length, inRange⟩ := (bodyOk_iff b).mp ok
    rw [is]
    refine (entryOk_allocated rfl).mpr ⟨(bodyOk_iff c).mpr ⟨?_, ?_, counts inRange⟩, links.trans linked⟩
    · rw [trans]
      exact transOk
    · rw [outputs, trans]
      exact length

/-- One entry is replaced by a sound one; the chains stand. -/
theorem putEntry {e : Entry} (inv : ScheduleInv m) (ok : entryOk e (chainsHolding m i)) :
    ScheduleInv { m with entries := tput m.entries i e } := by
  obtain ⟨chainsOk, entriesOk, lenOk⟩ := inv
  refine (scheduleInv_iff _).mpr ⟨chainsOk, fun j => ?_, lenOk⟩
  show entryOk (tget (tput m.entries i e) j) (chainsHolding m j)
  rw [tget_tput]
  split
  · rename_i same
    subst same
    exact ok
  · exact entriesOk j

theorem allocated (inv : ScheduleInv m) (body : (tget m.entries i).body = some b) :
    bodyOk b = true ∧ b.linkCount = chainsHolding m i := (entryOk_allocated body).mp (inv.2.1 i)

/-- A chain and the link count of the entry that joins or leaves it are replaced. -/
theorem putChain {k : Fin Config.slotCount} {c : List (Fin Config.entryCount)} {e : Entry} (inv : ScheduleInv m)
    (distinct : c.Nodup) (short : c.length ≤ Config.chainLimit)
    (others : ∀ j, j ≠ i → c.contains j = (tget m.chains k).contains j)
    (ok : entryOk e (chainsHolding { m with chains := tput m.chains k c } i)) :
    ScheduleInv { m with chains := tput m.chains k c, entries := tput m.entries i e } := by
  obtain ⟨chainsOk, entriesOk, lenOk⟩ := inv
  refine (scheduleInv_iff _).mpr ⟨fun k' => ?_, fun j => ?_, lenOk⟩
  · show (tget (tput m.chains k c) k').Nodup ∧ (tget (tput m.chains k c) k').length ≤ Config.chainLimit
    rw [tget_tput]
    split
    · exact ⟨distinct, short⟩
    · exact chainsOk k'
  · show entryOk (tget (tput m.entries i e) j) (chainsHolding { m with chains := tput m.chains k c } j)
    rw [tget_tput]
    split
    · rename_i same
      subst same
      exact ok
    · rename_i other
      have holding := chainsHolding_putChain m k c j
      rw [others j (Ne.symm other)] at holding
      rw [Nat.add_right_cancel holding]
      exact entriesOk j

end ScheduleInv

theorem scheduleInv_initial : ScheduleInv .initial := by
  refine (scheduleInv_iff _).mpr ⟨fun k => ?_, fun i => ?_, rfl⟩
  · simp [Scm.initial]
  · simp [Scm.initial, entryOk, chainsHolding]

/-! ### The requests of the schedule memory keep it sound -/

theorem body_of_currentBody {m : Scm} {i : Fin Config.entryCount} {gen : Byte} {b : EntryBody}
    (current : currentBody m i gen = some b) : (tget m.entries i).body = some b ∧ (tget m.entries i).gen = gen := by
  unfold currentBody at current
  split at current
  · rename_i same
    exact ⟨current, same⟩
  · cases current

theorem body_of_freeIndex {m : Scm} {i : Fin Config.entryCount} (free : freeIndex m = some i) :
    (tget m.entries i).body = none := by
  simpa using List.find?_some free

theorem transOk_of_parseParams {p : ParamBlock} {t : Transaction} {route : Option Route}
    (parses : parseParams p = some (t, route)) : transOk t = true := by
  unfold parseParams at parses
  split at parses
  · rename_i parsed _
    cases parses
    exact transOk_of_parseTransaction parsed
  · cases parses

theorem resizeOutputs_length (o : Nat) (outputs : List Word) : (resizeOutputs o outputs).length = o := by
  simp only [resizeOutputs, List.length_append, List.length_take, List.length_replicate]
  omega

theorem loadOutputs_length {offset : Nat} {values outputs : List Word} (within : offset + values.length ≤ outputs.length) :
    (loadOutputs offset values outputs).length = outputs.length := by
  simp only [loadOutputs, List.length_append, List.length_take, List.length_drop]
  omega

theorem insertAt_perm (pos : Nat) (i : Fin Config.entryCount) (c : List (Fin Config.entryCount)) :
    (insertAt pos i c).Perm (i :: c) := by
  have := List.perm_middle (a := i) (l₁ := c.take pos) (l₂ := c.drop pos)
  rwa [List.take_append_drop] at this

section
variable {s : State}

theorem takeEntryAdd_schedule (tag : Byte) (p : ParamBlock) (inv : ScheduleInv s.scm) :
    ScheduleInv (takeEntryAdd tag p s).scm := by
  unfold takeEntryAdd
  repeat' split
  · simpa using inv
  · simpa using inv
  · rename_i t route parses _ _ i free
    have noLinks := (entryOk_free (body_of_freeIndex free)).mp (inv.2.1 i)
    have fresh : bodyOk (freshBody t route) = true :=
      (bodyOk_iff _).mpr ⟨transOk_of_parseParams parses, List.length_replicate, Nat.zero_le _, Nat.zero_le _,
        Nat.zero_le _, Nat.zero_le _⟩
    rw [reply_scm]
    exact inv.putEntry ((entryOk_allocated rfl).mpr ⟨fresh, noLinks.symm⟩)
  · simpa using inv

theorem takeEntrySet_schedule (tag index gen : Byte) (p : ParamBlock) (inv : ScheduleInv s.scm) :
    ScheduleInv (takeEntrySet tag index gen p s).scm := by
  unfold takeEntrySet
  repeat' split
  · simpa using inv
  · simpa using inv
  · simpa using inv
  · rename_i i _ _ b current _ t route parses _
    obtain ⟨-, linked⟩ := inv.allocated (body_of_currentBody current).1
    have sets : bodyOk (setBody t route b) = true :=
      (bodyOk_iff _).mpr ⟨transOk_of_parseParams parses, resizeOutputs_length _ _, Nat.zero_le _, Nat.zero_le _,
        Nat.zero_le _, Nat.zero_le _⟩
    rw [reply_scm]
    exact inv.putEntry ((entryOk_allocated rfl).mpr ⟨sets, linked⟩)
  · simpa using inv

theorem takeEntryLoad_schedule (tag index gen offset : Byte) (values : List Word) (inv : ScheduleInv s.scm) :
    ScheduleInv (takeEntryLoad tag index gen offset values s).scm := by
  unfold takeEntryLoad
  repeat' split
  · simpa using inv
  · simpa using inv
  · rename_i i _ _ b current within
    obtain ⟨ok, linked⟩ := inv.allocated (body_of_currentBody current).1
    obtain ⟨transOk, length, inRange⟩ := (bodyOk_iff b).mp ok
    have loads : bodyOk { b with outputs := loadOutputs offset.toNat values b.outputs } = true := by
      refine (bodyOk_iff _).mpr ⟨transOk, ?_, inRange⟩
      rw [← length] at within
      exact (loadOutputs_length within).trans length
    rw [reply_scm]
    exact inv.putEntry ((entryOk_allocated rfl).mpr ⟨loads, linked⟩)
  · simpa using inv

theorem takeEntryFree_schedule (tag index gen : Byte) (inv : ScheduleInv s.scm) :
    ScheduleInv (takeEntryFree tag index gen s).scm := by
  unfold takeEntryFree
  repeat' split
  · simpa using inv
  · simpa using inv
  · simpa using inv
  · rename_i i _ _ b current unlinked
    obtain ⟨-, linked⟩ := inv.allocated (body_of_currentBody current).1
    rw [reply_scm]
    exact inv.putEntry ((entryOk_free rfl).mpr (by omega))

theorem takeChainInsert_schedule (tag slot position index gen : Byte) (inv : ScheduleInv s.scm) :
    ScheduleInv (takeChainInsert tag slot position index gen s).scm := by
  unfold takeChainInsert
  dsimp only
  repeat' split
  · simpa using inv
  · simpa using inv
  · simpa using inv
  · simpa using inv
  · rename_i k i _ _ _ b current _ notIn room
    obtain ⟨ok, linked⟩ := inv.allocated (body_of_currentBody current).1
    obtain ⟨distinct, -⟩ := inv.1 k
    have perm := insertAt_perm position.toNat i (tget s.scm.chains k)
    have holding := chainsHolding_putChain s.scm k (insertAt position.toNat i (tget s.scm.chains k)) i
    have isIn : (insertAt position.toNat i (tget s.scm.chains k)).contains i = true := by simp [insertAt]
    rw [isIn, Bool.eq_false_iff.mpr notIn] at holding
    have entry : entryOk { gen := gen, body := some { b with linkCount := b.linkCount + 1 } }
        (chainsHolding { s.scm with
          chains := tput s.scm.chains k (insertAt position.toNat i (tget s.scm.chains k)) } i) :=
      (entryOk_allocated (b := { b with linkCount := b.linkCount + 1 }) rfl).mpr
        ⟨ok, by simpa [linked] using holding.symm⟩
    rw [reply_scm]
    refine inv.putChain (perm.nodup_iff.mpr (List.nodup_cons.mpr ⟨by simpa using notIn, distinct⟩)) ?_ (fun j other => ?_)
      entry
    · rw [perm.length_eq]
      exact Nat.lt_of_not_le room
    · rw [Bool.eq_iff_iff, List.contains_iff_mem, List.contains_iff_mem, perm.mem_iff, List.mem_cons]
      exact ⟨fun h => h.resolve_left other, .inr⟩
  · simpa using inv

theorem takeChainRemove_schedule (tag slot index : Byte) (inv : ScheduleInv s.scm) :
    ScheduleInv (takeChainRemove tag slot index s).scm := by
  unfold takeChainRemove
  dsimp only
  repeat' split
  · rename_i k i _ _ isIn
    obtain ⟨distinct, short⟩ := inv.1 k
    have holding := chainsHolding_putChain s.scm k ((tget s.scm.chains k).erase i) i
    have out : ((tget s.scm.chains k).erase i).contains i = false := by
      simpa using fun mem => (distinct.mem_erase_iff.mp mem).1 rfl
    rw [out, isIn] at holding
    simp only [Bool.toNat_true, Bool.toNat_false, Nat.add_zero] at holding
    have before : entryOk (tget s.scm.entries i) (chainsHolding s.scm i) := inv.2.1 i
    have entry : entryOk
        { tget s.scm.entries i with
          body := (tget s.scm.entries i).body.map fun b => { b with linkCount := b.linkCount - 1 } }
        (chainsHolding { s.scm with chains := tput s.scm.chains k ((tget s.scm.chains k).erase i) } i) := by
      cases body : (tget s.scm.entries i).body with
      | none =>
        have := (entryOk_free body).mp before
        omega
      | some b =>
        obtain ⟨ok, linked⟩ := (entryOk_allocated body).mp before
        refine (entryOk_allocated (b := { b with linkCount := b.linkCount - 1 }) rfl).mpr ⟨ok, ?_⟩
        dsimp only
        omega
    rw [reply_scm]
    refine inv.putChain (distinct.erase i) (Nat.le_trans List.length_erase_le short) (fun j other => ?_) entry
    rw [Bool.eq_iff_iff, List.contains_iff_mem, List.contains_iff_mem, distinct.mem_erase_iff]
    exact ⟨fun h => h.2, fun mem => ⟨other, mem⟩⟩
  · simpa using inv
  · simpa using inv

theorem takeScheduleLength_schedule (tag len : Byte) (inv : ScheduleInv s.scm) :
    ScheduleInv (takeScheduleLength tag len s).scm := by
  obtain ⟨chainsOk, entriesOk, lenOk⟩ := inv
  unfold takeScheduleLength
  split
  · rename_i isLen
    rw [reply_scm]
    exact ⟨chainsOk, entriesOk, isLen⟩
  · rw [reply_scm]
    exact ⟨chainsOk, entriesOk, lenOk⟩

/-- RESET ALL frees every entry and empties every chain (R20). -/
theorem scheduleInv_resetAll (m : Scm) : ScheduleInv (scmResetAll m) := by
  refine (scheduleInv_iff _).mpr ⟨fun k => ?_, fun i => ?_, rfl⟩
  · simp [scmResetAll, Scm.initial]
  · have free : (tget (scmResetAll m).entries i).body = none := by
      rw [scmResetAll, tget_tmap, entryResetAll]
      split
      · rfl
      · assumption
    rw [entryOk_free free]
    simp [chainsHolding, scmResetAll, Scm.initial]

theorem ScheduleInv.ownerEffect {c : Instr} {r : Request} {tag : Byte} {payload : List Byte}
    (stands : requestOf c = some (r, tag, payload)) (inv : ScheduleInv s.scm) : ScheduleInv (ownerEffect c s).scm := by
  cases c <;> cases stands <;> simp only [Machine.ownerEffect]
  case entryAdd => exact takeEntryAdd_schedule _ _ inv
  case entrySet => exact takeEntrySet_schedule _ _ _ _ inv
  case entryLoad => exact takeEntryLoad_schedule _ _ _ _ _ inv
  case entryFree => exact takeEntryFree_schedule _ _ _ inv
  case chainInsert => exact takeChainInsert_schedule _ _ _ _ _ inv
  case chainRemove => exact takeChainRemove_schedule _ _ _ inv
  case scheduleLength => exact takeScheduleLength_schedule _ _ inv
  case resetAll => simpa [takeResetAll, resetAllBlocks] using scheduleInv_resetAll s.scm
  all_goals
    simp only [takeOpen, takeClose, takeIdentify, takeStatus, takeAckReports, takeResetEngine, takeEntryRead,
      takeChainRead, takeBusConfig, takeStart, takeHalt, takeQuiet, takeWake, takeSubmit, takeCancel, takeDropAttach,
      takeDropDetach, takeDropRead, takeDropClearService, takeSetConfig, takeSetRead, takeEventMask]
    repeat' split
  all_goals simpa using inv

end

/-- Settles O53: the requests of the schedule memory keep chains and link counts in agreement, and outcomes only count
in entries. -/
theorem stepKeepsTheSchedule : Obligations.StepKeepsTheSchedule := by
  intro s t inv next
  refine step_keeps (P := fun s => ScheduleInv s.scm) (fun _ _ inv => inv)
    (fun _ _ _ => exec_keeps (P := fun s => ScheduleInv s.scm) (fun _ _ inv => inv)
      (fun _ _ _ _ _ stands _ inv => ScheduleInv.ownerEffect stands inv) (fun c s _ inv => ?_)) inv next
  rcases eventEffect_records c s with records | initial
  · exact ScheduleInv.records inv records
  · rw [initial]
    exact scheduleInv_initial

end Sys2Proof.Machine

namespace Sys2Proof.Machine

/-! ### Result sets (R107, R110, R113) -/

/-- Fill, ring and counts of a set agree with its mode (R107, R110, R113). -/
def setAgrees (r : SetRec) : Prop :=
  match r.mode with
  | .off => r = emptySet .off r.width
  | .block =>
    r.fill ≤ 3 ∧ r.newest = 0 ∧ r.latest = 0 ∧ ∀ k < r.fill, sampleOk r.width (tget r.slots (Fin.ofNat 4 k)) = true
  | .latest =>
    r.fill = 0 ∧ r.latest ≤ 4 ∧ r.block = 0 ∧ r.lost = 0
      ∧ ∀ k < r.latest, sampleOk r.width (tget r.slots (r.newest - Fin.ofNat 4 k)) = true

theorem setOk_iff (r : SetRec) :
    setOk r = true ↔ (1 ≤ r.width ∧ r.width ≤ 8 ∧ r.lost ≤ Config.limit8) ∧ setAgrees r := by
  unfold setOk setAgrees
  rw [Bool.and_eq_true]
  refine and_congr ?ranges ?agrees
  case ranges => simp only [Bool.and_eq_true, decide_eq_true_eq, and_assoc]
  case agrees => cases r.mode <;> simp [and_assoc]

/-- An empty set is sound in every mode (R114, R119). -/
theorem setOk_emptySet (mode : SetMode) {w : Nat} (low : 1 ≤ w) (high : w ≤ 8) : setOk (emptySet mode w) = true := by
  refine (setOk_iff _).mpr ⟨⟨low, high, Nat.zero_le _⟩, ?_⟩
  cases mode with
  | off => rfl
  | block => exact ⟨Nat.zero_le _, rfl, rfl, fun k some => absurd some (Nat.not_lt_zero k)⟩
  | latest => exact ⟨rfl, Nat.zero_le _, rfl, rfl, fun k some => absurd some (Nat.not_lt_zero k)⟩

theorem sampleOk_some {w : Nat} {x : Sample} (wide : x.values.length = w) : sampleOk w (some x) = true := by
  simp [sampleOk, wide]

/-- A sample joins a partial block of fewer than three (R110). -/
theorem setOk_addToBlock {x : Sample} {r : SetRec} (ok : setOk r = true) (mode : r.mode = .block)
    (room : r.fill + 1 < 4) (wide : x.values.length = r.width) : setOk (addToBlock x r) = true := by
  obtain ⟨ranges, agrees⟩ := (setOk_iff r).mp ok
  simp only [setAgrees, mode] at agrees
  obtain ⟨-, newest, latest, samples⟩ := agrees
  refine (setOk_iff _).mpr ⟨ranges, ?_⟩
  simp only [setAgrees, addToBlock, mode]
  refine ⟨Nat.le_of_lt_succ room, newest, latest, fun k hk => ?_⟩
  rw [tget_tput]
  split
  · exact sampleOk_some wide
  · rename_i other
    refine samples k (Nat.lt_of_le_of_ne (Nat.le_of_lt_succ hk) fun same => other ?_)
    rw [same]

/-- A block that was completed leaves an empty one, and is counted when it was refused (R111). -/
theorem setOk_afterBlock (admitted : Bool) {r : SetRec} (ok : setOk r = true) (mode : r.mode = .block) :
    setOk (afterBlock admitted r) = true := by
  obtain ⟨⟨low, high, -⟩, agrees⟩ := (setOk_iff r).mp ok
  simp only [setAgrees, mode] at agrees
  obtain ⟨-, newest, latest, -⟩ := agrees
  refine (setOk_iff _).mpr ⟨⟨low, high, ?_⟩, ?_⟩
  · simp only [afterBlock]
    split
    · exact Nat.zero_le _
    · exact satAdd_le _ _ _
  · simp only [setAgrees, afterBlock, mode]
    exact ⟨Nat.zero_le _, newest, latest, fun k some => absurd some (Nat.not_lt_zero k)⟩

/-- One place on in the ring, the sample `k + 1` places back is the one that was `k` back. -/
theorem ring_step (newest : Fin 4) (k : Nat) : newest + 1 - Fin.ofNat 4 (k + 1) = newest - Fin.ofNat 4 k := by
  have next : Fin.ofNat 4 (k + 1) = Fin.ofNat 4 k + 1 := Fin.ext (by
    simp only [Fin.ofNat, Fin.val_add]
    omega)
  have cancel : ∀ a b : Fin 4, a + 1 - (b + 1) = a - b := by decide
  rw [next, cancel]

/-- No place back in the ring. -/
theorem ring_start (newest : Fin 4) : newest = newest - Fin.ofNat 4 0 := by
  revert newest
  decide

/-- A sample joins the ring of a LATEST set (R113). -/
theorem setOk_addToLatest {x : Sample} {r : SetRec} (ok : setOk r = true) (mode : r.mode = .latest)
    (wide : x.values.length = r.width) : setOk (addToLatest x r) = true := by
  obtain ⟨ranges, agrees⟩ := (setOk_iff r).mp ok
  simp only [setAgrees, mode] at agrees
  obtain ⟨fill, few, block, lost, samples⟩ := agrees
  refine (setOk_iff _).mpr ⟨ranges, ?_⟩
  simp only [setAgrees, addToLatest, mode]
  refine ⟨fill, Nat.min_le_right _ _, block, lost, fun k hk => ?_⟩
  cases k with
  | zero =>
    rw [tget_tput, if_pos (ring_start _)]
    exact sampleOk_some wide
  | succ j =>
    have older : j < r.latest := by omega
    rw [if_neg (by omega), ring_step, tget_tput]
    split
    · exact sampleOk_some wide
    · exact samples j older

/-! ### Deposits (R108, R109) -/

/-- Widths stand, and sets stay sound: all that the work of the part does to RST. -/
def SetsKept (r r' : Rst) : Prop := (∀ k, (tget r'.sets k).width = (tget r.sets k).width) ∧ (SetInv r → SetInv r')

theorem SetsKept.refl (r : Rst) : SetsKept r r := ⟨fun _ => rfl, id⟩

theorem SetsKept.of_eq {r r' : Rst} (same : r' = r) : SetsKept r r' := same ▸ .refl r

theorem SetInv.put {r : Rst} {k : Fin Config.setCount} {x : SetRec} (inv : SetInv r) (ok : setOk x = true) :
    SetInv { sets := tput r.sets k x } := by
  intro j
  show setOk (tget (tput r.sets k x) j) = true
  rw [tget_tput]
  split
  · exact ok
  · exact inv j

theorem putSet_kept {k : Fin Config.setCount} {x : SetRec} {s : State} (width : x.width = (tget s.rst.sets k).width)
    (ok : setOk (tget s.rst.sets k) = true → setOk x = true) : SetsKept s.rst (putSet k x s).rst := by
  refine ⟨fun j => ?_, fun inv => SetInv.put inv (ok (inv k))⟩
  show (tget (tput s.rst.sets k x) j).width = _
  rw [tget_tput]
  split
  · rename_i same
    rw [width, same]
  · rfl

theorem deposit_kept {k : Fin Config.setCount} {x : Sample} {s : State}
    (wide : x.values.length = (tget s.rst.sets k).width) : SetsKept s.rst (deposit k x s).rst := by
  unfold deposit
  dsimp only
  split
  · exact .refl _
  · rename_i mode
    exact putSet_kept rfl fun ok => setOk_addToLatest ok mode wide
  · rename_i mode
    repeat' split
    · rename_i room
      exact putSet_kept rfl fun ok => setOk_addToBlock ok mode room wide
    · exact putSet_kept (s := s.setRep _) rfl fun ok => setOk_afterBlock true ok mode
    · exact putSet_kept rfl fun ok => setOk_afterBlock false ok mode

/-- The values of a deposit are those of the routed set's window (R108). -/
theorem routeDeposit_kept (p : PlanPair) (route : Route) (fault service : Bool) (values : List Word) (s : State) :
    SetsKept s.rst (routeDeposit p route fault service values s).rst := by
  unfold routeDeposit
  dsimp only
  split
  · rename_i within
    refine deposit_kept ?_
    rw [List.length_take, List.length_drop]
    omega
  · exact .refl _

theorem recordPeriodic_kept (p : PlanPair) (d : Fin Config.dropCount) (r : AttemptResult) (s : State) :
    SetsKept s.rst (recordPeriodic p d r s).rst := by
  unfold recordPeriodic
  split
  · exact .of_eq (by simp)
  · rename_i b _
    have same : (dropOutcome d r.success (putBody p.index (bodyOutcome r b) s)).rst = s.rst := by simp
    dsimp only
    split
    · exact same ▸ routeDeposit_kept _ _ _ _ _ _
    · exact .of_eq same

theorem attemptEnded_kept (it : Item) (c : Capture) (r : AttemptResult) (held : Bool) (s : State) :
    SetsKept s.rst (attemptEnded it c r held s).rst := by
  have ends : SetsKept s.rst (afterItem held (recordItem it c.drop r s)).rst := by
    rw [afterItem_rst]
    unfold recordItem
    split
    · exact recordPeriodic_kept _ _ _ _
    · exact .of_eq (by simp [clearItem])
    · exact .of_eq (by simp)
  unfold attemptEnded
  repeat' split
  · exact ends
  · exact .refl _
  · exact ends

/-- Of RST an event other than POWER_ON changes at most what is deposited. -/
theorem eventEffect_kept (c : Instr) (s : State) :
    SetsKept s.rst (eventEffect c s).rst ∨ (eventEffect c s).rst = .initial ∧ (eventEffect c s).scm = .initial := by
  cases c <;> simp only [eventEffect]
  case powerOn => exact .inr ⟨rfl, rfl⟩
  case attemptEnd line held =>
    refine .inl ?_
    split
    · rename_i r it c _ _ _
      have same : (hear (Config.ticks * Config.gapTime) line (s.setBtx { s.btx with state := .idle })).rst = s.rst := by
        simp
      exact same ▸ attemptEnded_kept it c r held _
    · split
      · exact .of_eq (by simp)
      · exact .refl _
    · exact .refl _
  all_goals
    refine .inl (.of_eq ?_)
    repeat' split
  all_goals simp

/-! ### Routes (R8) -/

/-- An entry's route fits the sets. -/
def entryRouteFits (r : Rst) (e : Entry) : Prop := (e.body.all fun b => routeFits r b.trans.inCount b.route) = true

theorem entryRouteFits_free {r : Rst} {e : Entry} (free : e.body = none) : entryRouteFits r e := by
  simp [entryRouteFits, free]

theorem entryRouteFits_allocated {r : Rst} {e : Entry} {b : EntryBody} (body : e.body = some b) :
    entryRouteFits r e ↔ routeFits r b.trans.inCount b.route = true := by simp [entryRouteFits, body]

theorem routeFits_congr {r r' : Rst} (widths : ∀ k, (tget r'.sets k).width = (tget r.sets k).width) (i : Nat)
    (route : Option Route) : routeFits r' i route = routeFits r i route := by
  cases route with
  | none => rfl
  | some route => simp only [routeFits, widths]

/-- Routes and sets of RST and SCM: every entry's route fits the sets, and every set is sound. -/
def RoutesOk (m : Scm) (r : Rst) : Prop := (∀ i, entryRouteFits r (tget m.entries i)) ∧ SetInv r

theorem routesOk_iff (s : State) : RoutesOk s.scm s.rst ↔ RouteInv s ∧ SetInv s.rst := Iff.rfl

namespace RoutesOk

variable {m n : Scm} {r r' : Rst}

theorem kept (inv : RoutesOk m r) (sets : SetsKept r r') : RoutesOk m r' := by
  obtain ⟨fits, ok⟩ := inv
  refine ⟨fun i => ?_, sets.2 ok⟩
  unfold entryRouteFits
  simp only [routeFits_congr sets.1]
  exact fits i

theorem records (inv : RoutesOk m r) (h : Records m n) : RoutesOk n r := by
  obtain ⟨fits, ok⟩ := inv
  obtain ⟨-, -, entries⟩ := h
  refine ⟨fun i => ?_, ok⟩
  rcases entries i with same | ⟨b, c, body, ⟨trans, route, -⟩, is⟩
  · rw [same]
    exact fits i
  · have before := (entryRouteFits_allocated body).mp (fits i)
    rw [is, entryRouteFits_allocated rfl, trans, route]
    exact before

theorem putEntry {i : Fin Config.entryCount} {e : Entry} (inv : RoutesOk m r) (fits : entryRouteFits r e)
    (entries : n.entries = tput m.entries i e) : RoutesOk n r := by
  obtain ⟨before, ok⟩ := inv
  refine ⟨fun j => ?_, ok⟩
  rw [entries, tget_tput]
  split
  · exact fits
  · exact before j

theorem of_free (free : ∀ i, (tget m.entries i).body = none) (ok : SetInv r) : RoutesOk m r :=
  ⟨fun i => entryRouteFits_free (free i), ok⟩

/-- The route of a current entry fits. -/
theorem currentFits {i : Fin Config.entryCount} {gen : Byte} {b : EntryBody} (inv : RoutesOk m r)
    (current : currentBody m i gen = some b) : routeFits r b.trans.inCount b.route = true :=
  (entryRouteFits_allocated (body_of_currentBody current).1).mp (inv.1 i)

end RoutesOk

theorem setInv_initial : SetInv .initial := by
  intro k
  rw [Rst.initial, tget_replicate]
  exact setOk_emptySet .off (by decide) (by decide)

section
variable {s : State}

theorem takeEntryAdd_routes (tag : Byte) (p : ParamBlock) (inv : RoutesOk s.scm s.rst) :
    RoutesOk (takeEntryAdd tag p s).scm (takeEntryAdd tag p s).rst := by
  unfold takeEntryAdd
  repeat' split
  · exact inv
  · exact inv
  · rename_i fits _ _ _
    exact inv.putEntry ((entryRouteFits_allocated rfl).mpr fits) rfl
  · exact inv

theorem takeEntrySet_routes (tag index gen : Byte) (p : ParamBlock) (inv : RoutesOk s.scm s.rst) :
    RoutesOk (takeEntrySet tag index gen p s).scm (takeEntrySet tag index gen p s).rst := by
  unfold takeEntrySet
  repeat' split
  · exact inv
  · exact inv
  · exact inv
  · rename_i fits
    exact inv.putEntry ((entryRouteFits_allocated rfl).mpr fits) rfl
  · exact inv

theorem takeEntryLoad_routes (tag index gen offset : Byte) (values : List Word) (inv : RoutesOk s.scm s.rst) :
    RoutesOk (takeEntryLoad tag index gen offset values s).scm (takeEntryLoad tag index gen offset values s).rst := by
  unfold takeEntryLoad
  repeat' split
  · exact inv
  · exact inv
  · rename_i current _
    have fits := inv.currentFits current
    exact inv.putEntry ((entryRouteFits_allocated rfl).mpr (by exact fits)) rfl
  · exact inv

theorem takeEntryFree_routes (tag index gen : Byte) (inv : RoutesOk s.scm s.rst) :
    RoutesOk (takeEntryFree tag index gen s).scm (takeEntryFree tag index gen s).rst := by
  unfold takeEntryFree
  repeat' split
  · exact inv
  · exact inv
  · exact inv
  · exact inv.putEntry (entryRouteFits_free rfl) rfl

theorem takeChainInsert_routes (tag slot position index gen : Byte) (inv : RoutesOk s.scm s.rst) :
    RoutesOk (takeChainInsert tag slot position index gen s).scm (takeChainInsert tag slot position index gen s).rst := by
  unfold takeChainInsert
  dsimp only
  repeat' split
  · exact inv
  · exact inv
  · exact inv
  · exact inv
  · rename_i current _ _ _
    have fits := inv.currentFits current
    exact inv.putEntry ((entryRouteFits_allocated rfl).mpr (by exact fits)) rfl
  · exact inv

theorem takeChainRemove_routes (tag slot index : Byte) (inv : RoutesOk s.scm s.rst) :
    RoutesOk (takeChainRemove tag slot index s).scm (takeChainRemove tag slot index s).rst := by
  unfold takeChainRemove
  dsimp only
  repeat' split
  · rename_i k i _ _ _
    refine inv.putEntry (i := i) ?_ rfl
    have before := inv.1 i
    cases body : (tget s.scm.entries i).body with
    | none => exact entryRouteFits_free rfl
    | some b => exact (entryRouteFits_allocated rfl).mpr (by exact (entryRouteFits_allocated body).mp before)
  · exact inv
  · exact inv

/-- No entry's window is stranded by a width that SET-CONFIG accepts (R114). -/
theorem routeFits_setConfig {k : Fin Config.setCount} {x : SetRec} {r : Rst} {i : Nat} {route : Option Route}
    (fits : routeFits r i route = true) (notStranded : ∀ w, route = some w → w.set = k → w.offset + x.width ≤ i) :
    routeFits { sets := tput r.sets k x } i route = true := by
  cases route with
  | none => rfl
  | some w =>
    simp only [routeFits, tget_tput, decide_eq_true_eq] at fits ⊢
    split
    · rename_i same
      exact notStranded w rfl same.symm
    · exact fits

theorem not_strands {k : Fin Config.setCount} {width : Nat} {m : Scm}
    (none_stranded : ¬ (m.entries.toArray.toList.any (strands k width)) = true) (i : Fin Config.entryCount) :
    strands k width (tget m.entries i) = false := by
  rw [Bool.eq_false_iff]
  intro stranded
  refine none_stranded (List.any_eq_true.mpr ⟨_, ?_, stranded⟩)
  simp [tget]

theorem takeSetConfig_routes (tag set mode width : Byte) (inv : RoutesOk s.scm s.rst) :
    RoutesOk (takeSetConfig tag set mode width s).scm (takeSetConfig tag set mode width s).rst := by
  unfold takeSetConfig
  repeat' split
  · exact inv
  · rename_i k m _ _ range noneStranded
    obtain ⟨fits, ok⟩ := inv
    refine ⟨fun i => ?_, SetInv.put ok (setOk_emptySet m range.1 range.2)⟩
    show entryRouteFits { sets := tput s.rst.sets k (emptySet m width.toNat) } (tget s.scm.entries i)
    cases body : (tget s.scm.entries i).body with
    | none => exact entryRouteFits_free body
    | some b =>
      rw [entryRouteFits_allocated body]
      refine routeFits_setConfig ((entryRouteFits_allocated body).mp (fits i)) fun w route same => ?_
      have := not_strands noneStranded i
      simp only [strands, body, route, same, beq_self_eq_true, Bool.true_and, decide_eq_false_iff_not,
        Nat.not_lt] at this
      exact this
  · exact inv
  · exact inv

/-- RESET ENGINE empties the sets and keeps their widths (R119). -/
theorem rstResetEngine_kept (r : Rst) : SetsKept r (rstResetEngine r) := by
  refine ⟨fun k => ?_, fun inv k => ?_⟩
  · simp [rstResetEngine, emptySet]
  · obtain ⟨⟨low, high, -⟩, -⟩ := (setOk_iff _).mp (inv k)
    rw [rstResetEngine, tget_tmap]
    exact setOk_emptySet _ low high

theorem takeResetEngine_routes (tag scope : Byte) (line : List Level) (inv : RoutesOk s.scm s.rst) :
    RoutesOk (takeResetEngine tag scope line s).scm (takeResetEngine tag scope line s).rst := by
  unfold takeResetEngine
  split
  · have resets := inv.kept (rstResetEngine_kept s.rst)
    rw [resetEngineNow_scm]
    unfold resetEngineNow
    dsimp only
    split
    · simpa using resets
    · simpa using resets
  · exact inv

theorem takeResetAll_routes (tag : Byte) (s : State) : RoutesOk (takeResetAll tag s).scm (takeResetAll tag s).rst := by
  refine .of_free (fun i => ?_) setInv_initial
  show (tget (tmap entryResetAll s.scm.entries) i).body = none
  rw [tget_tmap, entryResetAll]
  split
  · rfl
  · assumption

theorem RoutesOk.ownerEffect {c : Instr} {r : Request} {tag : Byte} {payload : List Byte}
    (stands : requestOf c = some (r, tag, payload)) (inv : RoutesOk s.scm s.rst) :
    RoutesOk (ownerEffect c s).scm (ownerEffect c s).rst := by
  cases c <;> cases stands <;> simp only [Machine.ownerEffect]
  case entryAdd => exact takeEntryAdd_routes _ _ inv
  case entrySet => exact takeEntrySet_routes _ _ _ _ inv
  case entryLoad => exact takeEntryLoad_routes _ _ _ _ _ inv
  case entryFree => exact takeEntryFree_routes _ _ _ inv
  case chainInsert => exact takeChainInsert_routes _ _ _ _ _ inv
  case chainRemove => exact takeChainRemove_routes _ _ _ inv
  case setConfig => exact takeSetConfig_routes _ _ _ _ inv
  case scheduleLength =>
    unfold takeScheduleLength
    split
    · exact inv
    · exact inv
  case resetAll => exact takeResetAll_routes _ s
  case resetEngine scope line =>
    split
    · exact inv
    · exact takeResetEngine_routes _ _ _ inv
  all_goals
    simp only [takeOpen, takeClose, takeIdentify, takeStatus, takeAckReports, takeEntryRead, takeChainRead,
      takeBusConfig, takeStart, takeHalt, takeQuiet, takeWake, takeSubmit, takeCancel, takeDropAttach,
      takeDropDetach, takeDropRead, takeDropClearService, takeSetRead, takeEventMask]
    repeat' split
  all_goals simpa using inv

end

/-- Settles O54: an entry takes only a route that fits, and a set only a width that fits every route; deposits are as
wide as their set. -/
theorem stepKeepsRoutesAndSets : Obligations.StepKeepsRoutesAndSets := by
  intro s t routes sets next
  refine step_keeps (P := fun s => RoutesOk s.scm s.rst) (fun _ _ inv => inv)
    (fun _ _ _ => exec_keeps (P := fun s => RoutesOk s.scm s.rst) (fun _ _ inv => inv)
      (fun _ _ _ _ _ stands _ inv => RoutesOk.ownerEffect stands inv) (fun c s _ inv => ?_)) ⟨routes, sets⟩ next
  rcases eventEffect_kept c s with kept | ⟨rst, scm⟩
  · rcases eventEffect_records c s with records | scm
    · exact (inv.kept kept).records records
    · rw [scm]
      exact .of_free (fun i => by simp [Scm.initial]) (kept.2 inv.2)
  · rw [rst, scm]
    exact .of_free (fun i => by simp [Scm.initial]) setInv_initial

end Sys2Proof.Machine

namespace Sys2Proof.Machine

/-! ### What FEN and BTX are at (R21, R35, R40, R51) -/

/-- The attempt on the line ends by the guard start, at the worst (R40). -/
def EndsInTime (f : Fen) (x : Btx) : Prop :=
  ∃ now c left, f.timer = some now ∧ x.capture = some c ∧ attemptLeft c x.state = some left
    ∧ now + Config.ticks * left ≤ Config.ticks * f.config.guardStart

theorem endsByGuard_iff (s : State) : endsByGuard s = true ↔ EndsInTime s.fen s.btx := by
  unfold endsByGuard EndsInTime
  cases s.fen.timer with
  | none => simp
  | some now =>
    cases s.btx.capture with
    | none => simp
    | some c => cases left : attemptLeft c s.btx.state <;> simp [left]

/-- What FEN and BTX are at, together. -/
inductive Work (f : Fen) (x : Btx) : Prop
  /-- An item is in progress and BTX performs its attempt. -/
  | attempt (item : f.item.isSome = true) (performs : inAttempt x.state = true) (inTime : EndsInTime f x)
    (engine : f.engine = .running ∨ f.engine = .halting) (stage : f.stage.walking = true) (waiting : x.waiting = [])
    (notDue : f.judgeDue = false)
  /-- The walk stands between two items, or in the idle tail. -/
  | between (item : f.item = none) (engine : f.engine = .running) (stage : f.stage.walking = true)
    (idle : x.state = .idle) (waiting : x.waiting = []) (due : f.stage = .adHoc ∨ f.judgeDue = true)
  /-- RUNNING, and no walk has begun in this frame. -/
  | before (item : f.item = none) (engine : f.engine = .running) (stage : f.stage.walking = false)
    (free : inAttempt x.state = false) (notDue : f.judgeDue = false)
  /-- The engine neither runs nor halts. -/
  | still (item : f.item = none) (engine : f.engine = .stopped ∨ f.engine = .quiet ∨ f.engine = .waking)
    (stage : f.stage = .idle) (free : inAttempt x.state = false) (notDue : f.judgeDue = false)

theorem budgetInv_of_work {s : State} (work : Work s.fen s.btx) : BudgetInv s := by
  unfold BudgetInv
  cases work with
  | attempt item performs inTime engine stage waiting notDue =>
    have notNone : s.fen.item ≠ none := fun none => by simp [none] at item
    refine ⟨item.trans performs.symm, fun _ => ⟨(endsByGuard_iff s).mpr inTime, engine, stage, waiting⟩, fun _ => item,
      fun _ _ none => absurd none notNone, fun due => absurd due (by simp [notDue]), fun _ _ none => absurd none notNone,
      fun still => ?_⟩
    rcases engine with h | h <;> simp [h] at still
  | between item engine stage idle waiting due =>
    refine ⟨by simp [item, idle, inAttempt], fun some => absurd some (by simp [item]),
      fun halting => absurd halting (by simp [engine]), fun _ _ _ => ⟨idle, waiting⟩, fun _ => ⟨engine, stage, item⟩,
      fun _ judged _ => due.resolve_left fun adHoc => ?_, fun still => ?_⟩
    · simp [adHoc] at judged
    · simp [engine] at still
  | before item engine stage free notDue =>
    refine ⟨by simp [item, free], fun some => absurd some (by simp [item]),
      fun halting => absurd halting (by simp [engine]), fun _ walking => absurd walking (by simp [stage]),
      fun due => absurd due (by simp [notDue]), fun _ judged _ => ?_, fun still => ?_⟩
    · rcases judged with h | h | h <;> simp [h, Stage.walking] at stage
    · simp [engine] at still
  | still item engine stage free notDue =>
    have notRunning : s.fen.engine ≠ .running := fun running => by simp [running] at engine
    refine ⟨by simp [item, free], fun some => absurd some (by simp [item]), fun halting => absurd engine (by simp [halting]),
      fun running => absurd running notRunning, fun due => absurd due (by simp [notDue]),
      fun running => absurd running notRunning, fun _ => stage⟩

theorem work_of_budgetInv {s : State} (inv : BudgetInv s) : Work s.fen s.btx := by
  obtain ⟨performs, inProgress, halting, betweenItems, due, judged, still⟩ := inv
  cases item : s.fen.item with
  | some it =>
    have isSome : s.fen.item.isSome = true := by simp [item]
    obtain ⟨inTime, engine, stage, waiting⟩ := inProgress isSome
    have notDue : s.fen.judgeDue = false := Bool.eq_false_iff.mpr fun isDue => by
      obtain ⟨-, -, none⟩ := due isDue
      simp [none] at item
    exact .attempt isSome (performs ▸ isSome) ((endsByGuard_iff s).mp inTime) engine stage waiting notDue
  | none =>
    have free : inAttempt s.btx.state = false := by rw [← performs, item]; rfl
    have notHalting : s.fen.engine ≠ .halting := fun h => by simpa [item] using halting h
    by_cases running : s.fen.engine = .running
    · cases walking : s.fen.stage.walking with
      | true =>
        obtain ⟨idle, waiting⟩ := betweenItems running walking item
        refine .between item running walking idle waiting ?_
        by_cases adHoc : s.fen.stage = .adHoc
        · exact .inl adHoc
        · refine .inr (judged running ?_ item)
          cases stage : s.fen.stage <;> simp_all [Stage.walking]
      | false =>
        refine .before item running walking free (Bool.eq_false_iff.mpr fun isDue => ?_)
        obtain ⟨-, stage, -⟩ := due isDue
        simp [stage] at walking
    · have engine : s.fen.engine = .stopped ∨ s.fen.engine = .quiet ∨ s.fen.engine = .waking := by
        cases engine : s.fen.engine <;> simp_all
      refine .still item engine (still engine) free (Bool.eq_false_iff.mpr fun isDue => ?_)
      exact running (due isDue).1

/-- FEN and BTX keep to the frame, and DBDE to what BTX drives. -/
def BusOk (f : Fen) (x : Btx) : Prop := Work f x ∧ DriverInv x

theorem busOk_iff (s : State) : BusOk s.fen s.btx ↔ BudgetInv s ∧ DriverInv s.btx :=
  and_congr ⟨budgetInv_of_work, work_of_budgetInv⟩ Iff.rfl

/-! ### DBDE (R50, R51) -/

theorem driverInv_of_released {x : Btx} (released : x.dbde = false) (state : drives x.state = false) : DriverInv x :=
  ⟨released.trans state.symm, fun drives => by simp [state] at drives⟩

theorem DriverInv.released {x : Btx} (inv : DriverInv x) (state : drives x.state = false) : x.dbde = false :=
  inv.1.trans state

/-- BTX is handed a broadcast: it drives at once when it is IDLE. -/
theorem DriverInv.hand {x : Btx} (inv : DriverInv x) (b : Handed) : DriverInv (btxHand b x) := by
  unfold btxHand
  split
  · exact ⟨rfl, fun _ => rfl⟩
  · exact inv

theorem inAttempt_btxHand (b : Handed) {x : Btx} (free : inAttempt x.state = false) :
    inAttempt (btxHand b x).state = false := by
  unfold btxHand
  split
  · rfl
  · exact free

theorem reTick_nil (old new : BusRate) : reTick old new [] = [] := by
  cases old <;> cases new <;> rfl

/-! ### The states between the operations -/

/-- RUNNING with the bus free and nothing left due: the next item may be judged. -/
structure Ready (f : Fen) (x : Btx) : Prop where
  item : f.item = none
  engine : f.engine = .running
  idle : x.state = .idle
  released : x.dbde = false
  waiting : x.waiting = []
  notDue : f.judgeDue = false

/-- No item is in progress and no judgement due: a frame may start, or the engine leave RUNNING. -/
structure Free (f : Fen) (x : Btx) : Prop where
  item : f.item = none
  free : inAttempt x.state = false
  notDue : f.judgeDue = false
  driver : DriverInv x

/-- Neither RUNNING nor HALTING, with nothing in progress. -/
structure Still (f : Fen) (x : Btx) : Prop extends Free f x where
  engine : f.engine = .stopped ∨ f.engine = .quiet ∨ f.engine = .waking
  stage : f.stage = .idle

theorem Still.busOk {f : Fen} {x : Btx} (h : Still f x) : BusOk f x :=
  ⟨.still h.item h.engine h.stage h.free h.notDue, h.driver⟩

theorem Free.before {f : Fen} {x : Btx} (h : Free f x) (engine : f.engine = .running) (stage : f.stage.walking = false) :
    BusOk f x := ⟨.before h.item engine stage h.free h.notDue, h.driver⟩

theorem BusOk.still {f : Fen} {x : Btx} (h : BusOk f x)
    (engine : f.engine = .stopped ∨ f.engine = .quiet ∨ f.engine = .waking) : Still f x := by
  obtain ⟨work, driver⟩ := h
  cases work with
  | attempt item performs inTime runs =>
    rcases runs with h | h <;> simp [h] at engine
  | between item running => simp [running] at engine
  | before item running => simp [running] at engine
  | still item _ stage free notDue => exact { item, free, notDue, driver, engine, stage }

/-- In RUNNING with no item and no judgement due, nothing is in progress. -/
theorem BusOk.free {f : Fen} {x : Btx} (h : BusOk f x) (item : f.item = none) (notDue : f.judgeDue = false) :
    Free f x := by
  obtain ⟨work, driver⟩ := h
  cases work with
  | attempt some => simp [item] at some
  | between _ _ _ idle => exact { item, notDue, driver, free := by simp [idle, inAttempt] }
  | before _ _ _ free => exact { item, notDue, driver, free }
  | still _ _ _ free => exact { item, notDue, driver, free }

/-- BTX performs an attempt: an item is in progress. -/
theorem BusOk.inProgress {f : Fen} {x : Btx} (h : BusOk f x) (performs : inAttempt x.state = true) :
    f.item.isSome = true ∧ EndsInTime f x ∧ (f.engine = .running ∨ f.engine = .halting) ∧ f.stage.walking = true
      ∧ x.waiting = [] ∧ f.judgeDue = false := by
  obtain ⟨work, -⟩ := h
  cases work with
  | attempt item _ inTime engine stage waiting notDue => exact ⟨item, inTime, engine, stage, waiting, notDue⟩
  | between _ _ _ idle => simp [idle, inAttempt] at performs
  | before _ _ _ free => simp [free] at performs
  | still _ _ _ free => simp [free] at performs

/-! ### The walk (R35, R40) -/

/-- The remaining time holds the attempt: it ends by the guard start (R25, R40). -/
theorem endsInTime_of_fits {f : Fen} {x : Btx} {c : Capture} (fits : c.cost ≤ remaining f)
    (capture : x.capture = some c) (state : x.state = .request) : EndsInTime f x := by
  have some_cost : 0 < c.cost := Nat.lt_of_lt_of_le (by decide) (Nat.le_add_right 162 _)
  unfold remaining at fits
  cases timer : f.timer with
  | none =>
    simp only [timer] at fits
    omega
  | some now =>
    simp only [timer] at fits
    refine ⟨now, c, c.cost, timer, capture, by simp [state, attemptLeft], ?_⟩
    have := Nat.mul_le_of_le_div _ _ _ fits
    have positive : 0 < Config.ticks * c.cost := Nat.mul_pos (by decide) some_cost
    rw [Nat.mul_comm] at this
    omega

/-- An item starts that fits the remaining time. -/
theorem startItem_busOk {src : ItemSource} {retries : Nat} {c : Capture} {s : State} (ready : Ready s.fen s.btx)
    (stage : s.fen.stage.walking = true) (fits : c.cost ≤ remaining s.fen) :
    BusOk (startItem src retries c s).fen (startItem src retries c s).btx :=
  ⟨.attempt rfl rfl (endsInTime_of_fits (by exact fits) rfl rfl) (.inl ready.engine) stage ready.waiting ready.notDue,
    rfl, fun _ => rfl⟩

/-- The idle tail. -/
theorem Ready.adHoc {f : Fen} {x : Btx} (ready : Ready f x) (stage : f.stage = .adHoc) : BusOk f x :=
  ⟨.between ready.item ready.engine (by simp [stage, Stage.walking]) ready.idle ready.waiting (.inl stage),
    driverInv_of_released ready.released (by simp [ready.idle, drives])⟩

theorem serveAdHoc_busOk (q : List AdHoc) {s : State} (ready : Ready s.fen s.btx) (stage : s.fen.stage = .adHoc) :
    BusOk (serveAdHoc q s).fen (serveAdHoc q s).btx := by
  induction q generalizing s with
  | nil => exact ready.adHoc stage
  | cons h rest ih =>
    obtain ⟨item, engine, idle, released, waiting, notDue⟩ := ready
    have ready' : Ready { s.fen with queue := rest } s.btx := { item, engine, idle, released, waiting, notDue }
    unfold serveAdHoc
    repeat' split
    · exact Ready.adHoc { item, engine, idle, released, waiting, notDue } stage
    · exact ih (s := adHocNotReady h rest s) ready' stage
    · rename_i fits
      exact startItem_busOk (s := s.setFen { s.fen with queue := rest }) ready'
        (by simp [stage, Stage.walking]) fits
    · exact Ready.adHoc { item, engine, idle, released, waiting, notDue } stage

theorem adHocStage_busOk {s : State} (ready : Ready s.fen s.btx) : BusOk (adHocStage s).fen (adHocStage s).btx := by
  obtain ⟨item, engine, idle, released, waiting, notDue⟩ := ready
  exact serveAdHoc_busOk _ (s := s.setFen { s.fen with stage := .adHoc })
    { item, engine, idle, released, waiting, notDue } rfl

theorem probeStage_busOk {s : State} (ready : Ready s.fen s.btx) : BusOk (probeStage s).fen (probeStage s).btx := by
  obtain ⟨item, engine, idle, released, waiting, notDue⟩ := ready
  have ready' : Ready { s.fen with stage := .probe } s.btx := { item, engine, idle, released, waiting, notDue }
  unfold probeStage
  dsimp only
  repeat' split
  · rename_i d _ fits
    exact startItem_busOk (s := probeBegun d (s.setFen { s.fen with stage := .probe })) ready' rfl fits
  · exact adHocStage_busOk (s := s.setFen { s.fen with stage := .probe }) ready'
  · exact adHocStage_busOk (s := s.setFen { s.fen with stage := .probe }) ready'

theorem walkPeriodic_busOk (pairs : List PlanPair) {s : State} (ready : Ready s.fen s.btx)
    (stage : s.fen.stage = .periodic) : BusOk (walkPeriodic pairs s).fen (walkPeriodic pairs s).btx := by
  induction pairs generalizing s with
  | nil => exact probeStage_busOk (by simpa using ready)
  | cons p rest ih =>
    obtain ⟨item, engine, idle, released, waiting, notDue⟩ := ready
    unfold walkPeriodic
    dsimp only
    repeat' split
    · exact ih (s := s.setFen { s.fen with planPos := s.fen.planPos + 1 })
        { item, engine, idle, released, waiting, notDue } stage
    · exact ih (s := putBody _ _ (s.setFen { s.fen with planPos := s.fen.planPos + 1 }))
        { item, engine, idle, released, waiting, notDue } stage
    · exact ih (s := putBody _ _ (s.setFen
          { s.fen with planPos := s.fen.planPos + 1, skipCount := s.fen.skipCount + 1 }))
        { item, engine, idle, released, waiting, notDue } stage
    · rename_i fits
      exact startItem_busOk (s := s.setFen { s.fen with planPos := s.fen.planPos + 1 })
        { item, engine, idle, released, waiting, notDue } (by simp [stage, Stage.walking]) (Nat.le_of_not_lt fits)

theorem continueWalk_busOk {s : State} (ready : Ready s.fen s.btx) :
    BusOk (continueWalk s).fen (continueWalk s).btx := by
  have walks : BusOk (walkPeriodic (s.fen.plan.drop s.fen.planPos) (s.setFen { s.fen with stage := .periodic })).fen
      (walkPeriodic (s.fen.plan.drop s.fen.planPos) (s.setFen { s.fen with stage := .periodic })).btx := by
    obtain ⟨item, engine, idle, released, waiting, notDue⟩ := ready
    exact walkPeriodic_busOk _ (s := s.setFen { s.fen with stage := .periodic })
      { item, engine, idle, released, waiting, notDue } rfl
  unfold continueWalk
  split
  · rename_i stage
    exact ⟨.before ready.item ready.engine (by simp [stage, Stage.walking]) (by simp [ready.idle, inAttempt]) ready.notDue,
      driverInv_of_released ready.released (by simp [ready.idle, drives])⟩
  · exact walks
  · exact walks
  · exact probeStage_busOk ready
  · exact adHocStage_busOk ready
  · exact adHocStage_busOk ready

theorem judgeNext_busOk {s : State} (item : s.fen.item = none) (due : s.fen.judgeDue = true)
    (ok : BusOk s.fen s.btx) : BusOk (judgeNext s).fen (judgeNext s).btx := by
  obtain ⟨work, driver⟩ := ok
  cases work with
  | attempt some => simp [item] at some
  | between _ engine _ idle waiting =>
    have released := driver.released (by simp [idle, drives])
    exact continueWalk_busOk (s := s.setFen { s.fen with judgeDue := false })
      { item, engine, idle, released, waiting, notDue := rfl }
  | before _ _ _ _ notDue => simp [due] at notDue
  | still _ _ _ _ notDue => simp [due] at notDue

/-! ### Stopping and going quiet -/

theorem enterEngine_fen (new : EngineState) (cause : EngineCause) (s : State) :
    (enterEngine new cause s).fen = { s.fen with engine := new } := by simp [enterEngine]

theorem handBroadcast_btx (b : Broadcast) (s : State) :
    (handBroadcast b s).btx = btxHand { what := b, rate := s.fen.config.rate } s.btx := rfl

theorem goQuiet_still (cause : EngineCause) {s : State} (free : Free s.fen s.btx) :
    Still (goQuiet cause s).fen (goQuiet cause s).btx := by
  unfold goQuiet
  rw [enterEngine_fen, enterEngine_btx]
  exact {
    item := free.item, free := inAttempt_btxHand _ free.free, notDue := free.notDue, driver := free.driver.hand _,
    engine := .inr (.inl rfl), stage := rfl }

theorem enterStopped_still (cause : EngineCause) {s : State} (item : s.fen.item = none)
    (free : inAttempt s.btx.state = false) (driver : DriverInv s.btx) :
    Still (enterStopped cause s).fen (enterStopped cause s).btx := by
  rw [enterStopped_btx]
  unfold enterStopped
  rw [enterEngine_fen]
  refine { item := ?_, free, driver, notDue := rfl, engine := .inl rfl, stage := rfl }
  dsimp only
  split
  · simpa using item
  · exact item

theorem carryQuiet_still (cause : EngineCause) {s : State} (still : Still s.fen s.btx) :
    Still (carryQuiet cause s).fen (carryQuiet cause s).btx := by
  unfold carryQuiet
  split
  · exact goQuiet_still cause still.toFree
  · exact still

theorem haltingEnds_still {s : State} (item : s.fen.item = none) (free : inAttempt s.btx.state = false)
    (driver : DriverInv s.btx) : Still (haltingEnds s).fen (haltingEnds s).btx :=
  carryQuiet_still _ (s := answerDeferred _ _ _ (enterStopped s.fen.haltCause s))
    (enterStopped_still s.fen.haltCause item free driver)

/-! ### Frame starts (R32, R33) -/

theorem jammedStart_busOk {s : State} (free : Free s.fen s.btx) (engine : s.fen.engine = .running) :
    BusOk (jammedStart s).fen (jammedStart s).btx := by
  obtain ⟨item, free, notDue, driver⟩ := free
  unfold jammedStart
  dsimp only
  split
  · exact Still.busOk (enterStopped_still _ (by exact item) (by exact free) (by exact driver))
  · exact Free.before { item, free, notDue, driver } engine rfl

theorem cleanStart_busOk {s : State} (free : Free s.fen s.btx) (engine : s.fen.engine = .running) :
    BusOk (cleanStart s).fen (cleanStart s).btx :=
  ⟨.before free.item engine rfl (inAttempt_btxHand _ free.free) free.notDue, free.driver.hand _⟩

theorem frameStart_busOk {s : State} (free : Free s.fen s.btx) (engine : s.fen.engine = .running) :
    BusOk (frameStart s).fen (frameStart s).btx := by
  obtain ⟨item, free, notDue, driver⟩ := free
  unfold frameStart
  dsimp only
  rw [frameBegun_fen, frameBegun_btx]
  split
  · exact jammedStart_busOk (s := s.setFen _) { item, free, notDue, driver } engine
  · exact cleanStart_busOk (s := s.setFen _) { item, free, notDue, driver } engine

end Sys2Proof.Machine

namespace Sys2Proof.Machine

section
variable {s : State}

/-! ### The end of an item (R44) -/

theorem recordItem_fen (it : Item) (d : Fin Config.dropCount) (r : AttemptResult) (s : State) :
    (recordItem it d r s).fen = { s.fen with item := none } := by
  unfold recordItem
  split
  · simp [clearItem]
  · simp [clearItem]
  · unfold recordAdHoc
    dsimp only
    split <;> simp [clearItem]

theorem recordItem_btx (it : Item) (d : Fin Config.dropCount) (r : AttemptResult) (s : State) :
    (recordItem it d r s).btx = { s.btx with capture := none } := by
  unfold recordItem
  split
  · simp [clearItem]
  · simp [clearItem]
  · unfold recordAdHoc
    dsimp only
    split <;> simp [clearItem]

/-- The stage that is left when a judgement is left due is one of the walk (log 17). -/
theorem leaveJudgement_busOk (ready : Ready s.fen s.btx) (stage : s.fen.stage.walking = true) :
    BusOk (leaveJudgement s).fen (leaveJudgement s).btx := by
  rw [leaveJudgement_fen, leaveJudgement_btx]
  refine ⟨.between ready.item ready.engine ?_ ready.idle ready.waiting (.inr rfl),
    driverInv_of_released ready.released (by simp [ready.idle, drives])⟩
  dsimp only
  split
  · rfl
  · exact stage

/-- After an item that has ended, HALTING ends or the walk goes on (R28, R35). -/
theorem afterItem_busOk (held : Bool) (item : s.fen.item = none) (idle : s.btx.state = .idle)
    (released : s.btx.dbde = false) (waiting : s.btx.waiting = []) (notDue : s.fen.judgeDue = false)
    (engine : s.fen.engine = .running ∨ s.fen.engine = .halting) (stage : s.fen.stage.walking = true) :
    BusOk (afterItem held s).fen (afterItem held s).btx := by
  unfold afterItem
  split
  · exact (haltingEnds_still item (by simp [idle, inAttempt])
      (driverInv_of_released released (by simp [idle, drives]))).busOk
  · rename_i notHalting
    have running := engine.resolve_right notHalting
    have ready : Ready s.fen s.btx := { item, engine := running, idle, released, waiting, notDue }
    rw [if_pos running]
    split
    · exact leaveJudgement_busOk ready stage
    · exact continueWalk_busOk ready

theorem attemptEnded_busOk {it : Item} {c : Capture} (r : AttemptResult) (held : Bool) (idle : s.btx.state = .idle)
    (released : s.btx.dbde = false) (waiting : s.btx.waiting = []) (notDue : s.fen.judgeDue = false)
    (engine : s.fen.engine = .running ∨ s.fen.engine = .halting) (stage : s.fen.stage.walking = true) :
    BusOk (attemptEnded it c r held s).fen (attemptEnded it c r held s).btx := by
  have ends : BusOk (afterItem held (recordItem it c.drop r s)).fen (afterItem held (recordItem it c.drop r s)).btx := by
    apply afterItem_busOk held
    all_goals simp only [recordItem_fen, recordItem_btx]
    all_goals assumption
  unfold attemptEnded
  repeat' split
  · exact ends
  · rename_i again
    exact ⟨.attempt rfl rfl (endsInTime_of_fits (by exact again.2) rfl rfl) engine stage waiting notDue, rfl, fun _ => rfl⟩
  · exact ends

/-! ### Waking, resets and the halt claim -/

theorem enterWaking_still (cause : EngineCause) (free : Free s.fen s.btx) (stage : s.fen.stage = .idle) :
    Still (enterWaking cause s).fen (enterWaking cause s).btx := by
  unfold enterWaking
  dsimp only
  rw [enterEngine_fen, enterEngine_btx]
  exact {
    item := free.item, free := inAttempt_btxHand _ free.free, notDue := free.notDue, driver := free.driver.hand _,
    engine := .inr (.inr rfl), stage }

/-- After the completion of a RESET ENGINE the engine is STOPPED (R150). -/
theorem completeReset_still (free : inAttempt s.btx.state = false) (driver : DriverInv s.btx) :
    Still (completeReset s).fen (completeReset s).btx := by
  rw [completeReset_btx]
  unfold completeReset
  dsimp only
  refine { item := rfl, free, notDue := rfl, driver, stage := rfl, engine := .inl ?_ }
  simp only [setFen_fen, fenResetEngine]
  split
  · assumption
  · rw [enterEngine_fen]

/-- With no item in progress BTX performs no attempt. -/
theorem BusOk.notAttempt {f : Fen} {x : Btx} (ok : BusOk f x) (item : f.item = none) : inAttempt x.state = false := by
  obtain ⟨work, -⟩ := ok
  cases work with
  | attempt some => simp [item] at some
  | between _ _ _ idle => simp [idle, inAttempt]
  | before _ _ _ free => exact free
  | still _ _ _ free => exact free

/-- RUNNING becomes HALTING while an item is in progress (R28). -/
theorem BusOk.halts {f f' : Fen} {x : Btx} (ok : BusOk f x) (some : f.item.isSome = true) (item : f'.item = f.item := by rfl)
    (stage : f'.stage = f.stage := by rfl) (due : f'.judgeDue = f.judgeDue := by rfl)
    (timer : f'.timer = f.timer := by rfl) (config : f'.config = f.config := by rfl)
    (engine : f'.engine = .running ∨ f'.engine = .halting := by exact .inr rfl) : BusOk f' x := by
  obtain ⟨work, driver⟩ := ok
  have notNone : f.item ≠ none := fun none => by simp [none] at some
  refine ⟨?_, driver⟩
  cases work with
  | attempt _ performs inTime _ walking waiting notDue =>
    refine .attempt (item ▸ some) performs ?_ engine (stage ▸ walking) waiting (due.trans notDue)
    unfold EndsInTime
    rw [timer, config]
    exact inTime
  | between none => exact absurd none notNone
  | before none => exact absurd none notNone
  | still none => exact absurd none notNone

/-- HALTING has an item in progress (R28). -/
theorem work_halting {f : Fen} {x : Btx} (work : Work f x) (halting : f.engine = .halting) : f.item.isSome = true := by
  cases work with
  | attempt item => exact item
  | between _ engine => simp [halting] at engine
  | before _ engine => simp [halting] at engine
  | still _ engine => simp [halting] at engine

theorem haltClaim_busOk (ok : BusOk s.fen s.btx) : BusOk (haltClaim s).fen (haltClaim s).btx := by
  unfold haltClaim
  split
  · exact ok
  · split
    · split
      · rename_i some
        rw [enterEngine_fen, enterEngine_btx]
        exact ok.halts some
      · rename_i notSome
        have item : s.fen.item = none := by simpa using notSome
        exact (carryQuiet_still _ (enterStopped_still _ item (ok.notAttempt item) ok.2)).busOk
    · rename_i halting
      have some := (work_halting ok.1 halting)
      exact ok.halts some (engine := .inr halting)
    · rename_i waking
      have still := ok.still (.inr (.inr waking))
      exact (enterStopped_still _ still.item still.free still.driver).busOk
    · exact ok
    · exact ok

/-- What BTX is at depends neither on the queue nor on what an item in progress is. -/
theorem BusOk.fenEnd {f : Fen} {x : Btx} (ok : BusOk f x) : BusOk (fenEnd f) x := by
  obtain ⟨work, driver⟩ := ok
  refine ⟨?_, driver⟩
  cases work with
  | attempt item performs inTime engine stage waiting notDue =>
    exact .attempt (by simpa [Machine.fenEnd] using item) performs inTime engine stage waiting notDue
  | between item engine stage idle waiting due =>
    exact .between (by simp [Machine.fenEnd, item]) engine stage idle waiting due
  | before item engine stage free notDue => exact .before (by simp [Machine.fenEnd, item]) engine stage free notDue
  | still item engine stage free notDue => exact .still (by simp [Machine.fenEnd, item]) engine stage free notDue

theorem sessionEnd_busOk (cause : EndCause) (ok : BusOk s.fen s.btx) :
    BusOk (sessionEnd cause s).fen (sessionEnd cause s).btx := by
  unfold sessionEnd
  dsimp only
  split
  · exact haltClaim_busOk (by simpa using ok.fenEnd)
  · exact ok.fenEnd

/-! ### The requests that govern the frame engine -/

/-- The line passes while nothing is driven or attempted. -/
theorem Free.hearAll (free : Free s.fen s.btx) (line : List Level) :
    Free (hearAll line s).fen (hearAll line s).btx := by
  obtain ⟨item, free, notDue, driver⟩ := free
  rw [hearAll_eq]
  exact { item, free, notDue, driver := ⟨driver.1, fun _ => rfl⟩ }

theorem takeStart_busOk (tag : Byte) (line : List Level) (ok : BusOk s.fen s.btx) :
    BusOk (takeStart tag line s).fen (takeStart tag line s).btx := by
  unfold takeStart
  split
  case h_1 stopped =>
    obtain ⟨⟨item, free, notDue, driver⟩, -, stage⟩ := ok.still (.inl stopped)
    have runs : Free (reply tag .ok [] (enterEngine .running .host (s.setFen { s.fen with jamCount := 0 }))).fen
        (reply tag .ok [] (enterEngine .running .host (s.setFen { s.fen with jamCount := 0 }))).btx := by
      rw [reply_fen, reply_btx, enterEngine_fen, enterEngine_btx]
      exact { item, free, notDue, driver }
    dsimp only
    split
    · exact frameStart_busOk (runs.hearAll line) (by simp [hearAll_eq, enterEngine_fen])
    · refine ⟨.before ?_ ?_ ?_ ?_ ?_, ?_⟩
      all_goals simp only [setFen_fen, setFen_btx, reply_fen, reply_btx, enterEngine_fen, enterEngine_btx, setFen_fen]
      · exact item
      · rw [stage]
        rfl
      · exact free
      · exact notDue
      · exact driver
  all_goals simpa using ok

theorem takeHalt_busOk (tag : Byte) (ok : BusOk s.fen s.btx) : BusOk (takeHalt tag s).fen (takeHalt tag s).btx := by
  unfold takeHalt
  split
  · split
    · rename_i some
      rw [deferReply_fen, deferReply_btx, enterEngine_fen, enterEngine_btx]
      exact ok.halts some
    · rename_i notSome
      have item : s.fen.item = none := by simpa using notSome
      have stops := enterStopped_still .host item (ok.notAttempt item) ok.2
      exact (carryQuiet_still _ (s := reply tag .ok [] (enterStopped .host s)) (by simpa using stops)).busOk
  · exact ok
  · rename_i waking
    have still := ok.still (.inr (.inr waking))
    simpa using (enterStopped_still .host still.item still.free still.driver).busOk
  · simpa using ok
  · simpa using ok

theorem takeQuiet_busOk (tag : Byte) (ok : BusOk s.fen s.btx) : BusOk (takeQuiet tag s).fen (takeQuiet tag s).btx := by
  unfold takeQuiet
  split
  · obtain ⟨work, driver⟩ := ok
    refine ⟨?_, driver⟩
    cases work with
    | attempt item performs inTime engine stage waiting notDue =>
      exact .attempt item performs inTime engine stage waiting notDue
    | between item engine stage idle waiting due => exact .between item engine stage idle waiting due
    | before item engine stage free notDue => exact .before item engine stage free notDue
    | still item engine stage free notDue => exact .still item engine stage free notDue
  · rename_i stopped
    simpa using (goQuiet_still .host (ok.still (.inl stopped)).toFree).busOk
  · rename_i waking
    simpa using (goQuiet_still .host (ok.still (.inr (.inr waking))).toFree).busOk
  · simpa using ok
  · simpa using ok

theorem takeWake_busOk (tag : Byte) (ok : BusOk s.fen s.btx) : BusOk (takeWake tag s).fen (takeWake tag s).btx := by
  unfold takeWake
  split
  · rename_i quiet
    have still := ok.still (.inr (.inl quiet))
    simpa using (enterWaking_still .host still.toFree still.stage).busOk
  all_goals simpa using ok

theorem takeBusConfig_busOk (tag rate period guard settling : Byte) (ok : BusOk s.fen s.btx) :
    BusOk (takeBusConfig tag rate period guard settling s).fen (takeBusConfig tag rate period guard settling s).btx := by
  unfold takeBusConfig
  split
  · simpa using ok
  · rename_i notStopped
    have stopped : s.fen.engine = .stopped := Classical.not_not.mp notStopped
    obtain ⟨⟨item, free, notDue, driver⟩, engine, stage⟩ := ok.still (.inl stopped)
    repeat' split
    · simpa using ok
    · simpa using ok
    · refine ⟨.still item engine stage free notDue, driver.1, fun drives => ?_⟩
      simp only [reply_btx, withConfig, setBtx_btx, setFen_btx]
      rw [driver.2 drives, reTick_nil]

/-- In the idle tail the bus is free (R39). -/
theorem examineAfter_busOk (line : List Level) (ok : BusOk s.fen s.btx) :
    BusOk (examineAfter line s).fen (examineAfter line s).btx := by
  unfold examineAfter
  split
  · rename_i tail
    simp only [idleTail, Bool.and_eq_true, beq_iff_eq, Option.isNone_iff_eq_none, Bool.not_eq_true'] at tail
    obtain ⟨⟨⟨running, stage⟩, item⟩, notDue⟩ := tail
    obtain ⟨work, driver⟩ := ok
    cases work with
    | attempt some => simp [item] at some
    | between _ engine _ idle waiting =>
      have released := driver.released (by simp [idle, drives])
      refine adHocStage_busOk ?_
      rw [hearAll_eq]
      exact { item, engine, idle, released, waiting, notDue }
    | before _ _ walking => simp [stage, Stage.walking] at walking
    | still _ _ idle => simp [stage] at idle
  · exact ok

/-- The queue and the ticket counter do not matter. -/
theorem BusOk.withQueue {f : Fen} {x : Btx} (ok : BusOk f x) (queue : List AdHoc) (ticket : Word) :
    BusOk { f with queue := queue, ticket := ticket } x := by
  obtain ⟨work, driver⟩ := ok
  refine ⟨?_, driver⟩
  cases work with
  | attempt item performs inTime engine stage waiting notDue =>
    exact .attempt item performs inTime engine stage waiting notDue
  | between item engine stage idle waiting due => exact .between item engine stage idle waiting due
  | before item engine stage free notDue => exact .before item engine stage free notDue
  | still item engine stage free notDue => exact .still item engine stage free notDue

theorem takeSubmit_busOk (tag kind drop first i o retries force : Byte) (values : List Word) (line : List Level)
    (ok : BusOk s.fen s.btx) : BusOk (takeSubmit tag kind drop first i o retries force values line s).fen
      (takeSubmit tag kind drop first i o retries force values line s).btx := by
  unfold takeSubmit
  repeat' split
  · simpa using ok
  · simpa using ok
  · simpa using ok
  · exact examineAfter_busOk line (by simpa using ok.withQueue _ _)
  · simpa using ok.withQueue _ _

theorem takeCancel_busOk (tag : Byte) (ticket : Word) (line : List Level) (ok : BusOk s.fen s.btx) :
    BusOk (takeCancel tag ticket line s).fen (takeCancel tag ticket line s).btx := by
  unfold takeCancel
  dsimp only
  repeat' split
  · exact examineAfter_busOk line (by simpa using ok.withQueue _ s.fen.ticket)
  · simpa using ok.withQueue _ s.fen.ticket
  · simpa using ok
  · simpa using ok

/-! ### RESET (R70, R71, R150) -/

theorem DriverInv.untilReset {x : Btx} (driver : DriverInv x) (rate : BusRate) (line : List Level) :
    DriverInv (btxUntilReset rate line x) := by
  have listens : ∀ n heard, drives x.state = false → DriverInv (btxHear rate n heard x) := fun n heard state =>
    driverInv_of_released (driver.released state) state
  unfold btxUntilReset
  split
  case h_1 => exact driver
  case h_6 => exact driver
  case h_7 => exact driver
  all_goals
    rename_i state
    exact listens _ _ (by simp [state, drives])

/-- BTX after an abandonment is IDLE, or what it was with a broadcast on the line (R70, R71). -/
theorem btxAbandon_free {x : Btx} (driver : DriverInv x) :
    inAttempt (btxAbandon x).state = false ∧ DriverInv (btxAbandon x) := by
  have releases : DriverInv { x with state := .idle, dbde := false, capture := none, rx := .empty } :=
    driverInv_of_released rfl rfl
  unfold btxAbandon
  split
  case h_1 state => exact ⟨by simp [state, inAttempt], driver⟩
  case h_2 state => exact ⟨by simp [state, inAttempt], driver⟩
  all_goals exact ⟨rfl, releases⟩

theorem resetEngineNow_busOk (tag : Byte) (line : List Level) (ok : BusOk s.fen s.btx) :
    BusOk (resetEngineNow tag line s).fen (resetEngineNow tag line s).btx := by
  unfold resetEngineNow
  dsimp only
  split
  · rename_i sleeps
    obtain ⟨⟨item, free, notDue, driver⟩, engine, stage⟩ := ok.still (.inr sleeps)
    rw [deferReply_fen, deferReply_btx, handBroadcast_fen, handBroadcast_btx]
    exact ⟨.still item engine stage (inAttempt_btxHand _ free) notDue,
      DriverInv.hand (x := { s.btx with waiting := [] }) driver _⟩
  · obtain ⟨free, driver⟩ := btxAbandon_free (ok.2.untilReset s.busRate line)
    rw [reply_fen, reply_btx]
    exact (completeReset_still (s := State.setBtx _ _) free driver).busOk

theorem BusOk.initial : BusOk .initial .initial := ⟨.still rfl (.inl rfl) rfl rfl rfl, rfl, fun drives => nomatch drives⟩

theorem BusOk.ownerEffect {c : Instr} {r : Request} {tag : Byte} {payload : List Byte}
    (stands : requestOf c = some (r, tag, payload)) (ok : BusOk s.fen s.btx) :
    BusOk (ownerEffect c s).fen (ownerEffect c s).btx := by
  cases c <;> cases stands <;> simp only [Machine.ownerEffect]
  case busConfig => exact takeBusConfig_busOk _ _ _ _ _ ok
  case start => exact takeStart_busOk _ _ ok
  case halt => exact takeHalt_busOk _ ok
  case quiet => exact takeQuiet_busOk _ ok
  case wake => exact takeWake_busOk _ ok
  case submit => exact takeSubmit_busOk _ _ _ _ _ _ _ _ _ _ ok
  case cancel => exact takeCancel_busOk _ _ _ ok
  case resetAll => simpa [takeResetAll, resetAllBlocks] using BusOk.initial
  case resetEngine =>
    split
    · exact ok
    · unfold takeResetEngine
      split
      · exact resetEngineNow_busOk _ _ ok
      · simpa using ok
  all_goals
    simp only [takeOpen, takeClose, takeIdentify, takeStatus, takeAckReports, takeEntryAdd, takeEntrySet, takeEntryLoad,
      takeEntryRead, takeEntryFree, takeChainInsert, takeChainRemove, takeChainRead, takeScheduleLength, takeDropAttach,
      takeDropDetach, takeDropRead, takeDropClearService, takeSetConfig, takeSetRead, takeEventMask]
    repeat' split
  all_goals simpa using ok

/-! ### The events of the drop bus and the boundaries -/

/-- What a period boundary asks of the state (R25, R39, R40). -/
theorem boundaryFalls_iff (s : State) :
    boundaryFalls s = true ↔ s.fen.timer.isSome = true ∧ s.fen.item = none ∧ s.btx.state = .idle ∧ s.btx.waiting = []
      ∧ s.fen.judgeDue = false := by
  simp [boundaryFalls, and_assoc]

theorem BusOk.atBoundary (ok : BusOk s.fen s.btx) (falls : boundaryFalls s = true) : Free s.fen s.btx := by
  obtain ⟨-, item, -, -, notDue⟩ := (boundaryFalls_iff s).mp falls
  exact ok.free item notDue

theorem settlingBeacon_busOk (line : List Level) (free : Free s.fen s.btx) (waking : s.fen.engine = .waking)
    (stage : s.fen.stage = .idle) : BusOk (settlingBeacon line s).fen (settlingBeacon line s).btx := by
  obtain ⟨item, free, notDue, driver⟩ := free.hearAll line
  unfold settlingBeacon
  dsimp only
  refine ⟨.still item (.inr (.inr ?_)) ?_ (inAttempt_btxHand _ free) notDue, driver.hand _⟩
  · simp [hearAll_eq, waking]
  · simp [hearAll_eq, stage]

theorem endSettling_busOk (line : List Level) (free : Free s.fen s.btx) :
    BusOk (endSettling line s).fen (endSettling line s).btx := by
  unfold endSettling
  refine frameStart_busOk (Free.hearAll ?_ line) (by simp [hearAll_eq, enterEngine_fen])
  obtain ⟨item, free, notDue, driver⟩ := free
  rw [answerDeferred_fen, answerDeferred_btx, enterEngine_fen, enterEngine_btx]
  exact { item, free, notDue, driver }

/-- With a broadcast or its gap on the line no walk stands between items. -/
theorem BusOk.onBroadcast {f : Fen} {x : Btx} (ok : BusOk f x) (free : inAttempt x.state = false)
    (busy : x.state ≠ .idle) : Free f x ∧ (f.engine = .running → f.stage.walking = false) := by
  obtain ⟨work, driver⟩ := ok
  cases work with
  | attempt _ performs => simp [free] at performs
  | between _ _ _ idle => exact absurd idle busy
  | before item _ stage _ notDue => exact ⟨{ item, free, notDue, driver }, fun _ => stage⟩
  | still item _ stage _ notDue => exact ⟨{ item, free, notDue, driver }, fun _ => by rw [stage]; rfl⟩

/-- BTX turns to something that is neither an attempt nor IDLE with a walk begun, while FEN stands but for its timer. -/
theorem BusOk.stands {f f' : Fen} {x x' : Btx} (ok : BusOk f x) (notAttempt : inAttempt x.state = false)
    (busy : x.state ≠ .idle) (free : inAttempt x'.state = false) (driver : DriverInv x')
    (item : f'.item = f.item := by rfl) (engine : f'.engine = f.engine := by rfl) (stage : f'.stage = f.stage := by rfl)
    (due : f'.judgeDue = f.judgeDue := by rfl) : BusOk f' x' := by
  obtain ⟨work, -⟩ := ok
  refine ⟨?_, driver⟩
  cases work with
  | attempt _ performs => simp [notAttempt] at performs
  | between _ _ _ idle => exact absurd idle busy
  | before item' engine' stage' _ notDue =>
    exact .before (item.trans item') (engine.trans engine') (by rw [stage, stage']) free (due.trans notDue)
  | still item' engine' stage' _ notDue =>
    exact .still (item.trans item') (engine ▸ engine') (stage.trans stage') free (due.trans notDue)

theorem afterBroadcast_busOk (what : Broadcast) (item : s.fen.item = none) (notDue : s.fen.judgeDue = false)
    (idle : s.btx.state = .idle) (released : s.btx.dbde = false)
    (ok : BusOk s.fen { s.btx with state := .gap (.broadcast ⟨what, s.fen.config.rate⟩) }) :
    BusOk (afterBroadcast what s).fen (afterBroadcast what s).btx := by
  have driver : DriverInv s.btx := driverInv_of_released released (by simp [idle, drives])
  have free : Free s.fen s.btx := { item, notDue, driver, free := by simp [idle, inAttempt] }
  have stands : ∀ f x, DriverInv x → inAttempt x.state = false → f.item = s.fen.item → f.engine = s.fen.engine →
      f.stage = s.fen.stage → f.judgeDue = s.fen.judgeDue → BusOk f x := fun f x driver free item engine stage due =>
    ok.stands rfl (by simp) free driver item engine stage due
  have rests : BusOk s.fen s.btx := stands _ _ driver free.free rfl rfl rfl rfl
  unfold afterBroadcast
  split
  · dsimp only
    split
    · exact stands _ _ ⟨rfl, fun _ => rfl⟩ rfl rfl rfl rfl rfl
    · exact stands _ _ ⟨rfl, fun _ => rfl⟩ rfl rfl rfl rfl rfl
  · rename_i waiting
    split
    · exact (completeReset_still free.free driver).busOk
    · split
      · exact stands _ _ driver free.free rfl rfl rfl rfl
      · rename_i engine
        repeat' split
        · exact (goQuiet_still .host free).busOk
        · exact frameStart_busOk free engine
        · exact continueWalk_busOk { item, engine, idle, released, waiting, notDue }
        · exact rests
      · exact rests

/-- Time on the line passes, and the attempt goes on in its next state (R58, R63). -/
theorem EndsInTime.passes {f : Fen} {x y : Btx} (inTime : EndsInTime f x) {n : Nat} (capture : y.capture = x.capture)
    (fits : ∀ c left, x.capture = some c → attemptLeft c x.state = some left →
      ∃ left', attemptLeft c y.state = some left' ∧ n + Config.ticks * left' ≤ Config.ticks * left) :
    EndsInTime { f with timer := f.timer.map (· + n) } y := by
  obtain ⟨now, c, left, timer, at_c, at_left, ends⟩ := inTime
  obtain ⟨left', at_left', shorter⟩ := fits c left at_c at_left
  refine ⟨now + n, c, left', by simp [timer], capture.trans at_c, at_left', ?_⟩
  dsimp only
  omega

/-- BTX goes on with its attempt, and listens. -/
theorem BusOk.goesOn {f : Fen} {x y : Btx} (ok : BusOk f x) {n : Nat} (performs : inAttempt x.state = true)
    (performs' : inAttempt y.state = true) (released : y.dbde = false) (listens : drives y.state = false)
    (waiting : y.waiting = x.waiting := by rfl) (capture : y.capture = x.capture := by rfl)
    (fits : ∀ c left, x.capture = some c → attemptLeft c x.state = some left →
      ∃ left', attemptLeft c y.state = some left' ∧ n + Config.ticks * left' ≤ Config.ticks * left) :
    BusOk { f with timer := f.timer.map (· + n) } y := by
  obtain ⟨item, inTime, engine, stage, none, notDue⟩ := ok.inProgress performs
  exact ⟨.attempt item performs' (inTime.passes capture fits) engine stage (waiting.trans none) notDue,
    driverInv_of_released released listens⟩

theorem BusOk.eventEffect (c : Instr) (ok : BusOk s.fen s.btx) : BusOk (eventEffect c s).fen (eventEffect c s).btx := by
  cases c <;> simp only [Machine.eventEffect]
  case powerOn => exact .initial
  case frameStart line =>
    split
    · rename_i falls
      exact frameStart_busOk ((ok.atBoundary falls.1).hearAll line) (by simp [hearAll_eq, falls.2.1])
    · exact ok
  case quietBoundary =>
    split
    · rename_i falls
      exact (goQuiet_still .host (ok.atBoundary falls.1)).busOk
    · exact ok
  case settlingBoundary line =>
    split
    · rename_i falls
      have still := ok.still (.inr (.inr falls.2))
      split
      · exact settlingBeacon_busOk line still.toFree falls.2 still.stage
      · exact endSettling_busOk line still.toFree
    · exact ok
  case wakePulse line =>
    split
    · rename_i watches
      obtain ⟨⟨item, free, notDue, driver⟩, engine, stage⟩ := ok.still (.inr (.inl watches.1))
      split
      · rename_i k _
        refine (enterWaking_still .wakePulse (s := s.setBtx (btxHear s.busRate k ((s.btx.lineWith line).take k) s.btx))
          { item, free, notDue, driver := ⟨driver.1, fun _ => ?_⟩ } stage).busOk
        simp [btxHear]
      · refine Still.busOk { item, free, notDue, engine, stage, driver := ⟨driver.1, fun _ => ?_⟩ }
        simp [btxHear]
    · exact ok
  case broadcastFrameEnd =>
    split
    · rename_i b state
      rw [drive_eq]
      exact ok.stands (by simp [state, inAttempt]) (by simp [state]) rfl ⟨rfl, fun drives => nomatch drives⟩
    · exact ok
  case broadcastGapEnd line =>
    split
    · rename_i b state
      obtain ⟨⟨item, -, notDue, driver⟩, -⟩ := ok.onBroadcast (by simp [state, inAttempt]) (by simp [state])
      have released := driver.released (by simp [state, drives])
      refine afterBroadcast_busOk b.what item notDue rfl released ?_
      exact ok.stands (by simp [state, inAttempt]) (by simp [state]) rfl ⟨released, fun drives => nomatch drives⟩
    · exact ok
  case requestFrameEnd =>
    split
    · rename_i c state capture
      rw [drive_eq]
      refine ok.goesOn (n := Config.ticks * requestTime c.outCount) (by simp [state, inAttempt]) rfl rfl rfl rfl rfl
        fun c' left at_c' at_left => ⟨_, rfl, ?_⟩
      obtain rfl := Option.some.inj (capture.symm.trans at_c')
      simp only [state, attemptLeft, Option.some.injEq] at at_left
      simp only [← at_left, Capture.cost, attemptCost, requestTime, answerLimit, Config.ticks, Config.answerDeadline,
        Config.gapTime]
      omega
    · exact ok
  case answerStartBit line =>
    split
    · rename_i n state starts
      have early : n ≤ Config.ticks * Config.answerDeadline := by
        unfold answerStart at starts
        repeat' split at starts
        · cases starts
          assumption
        · cases starts
        · cases starts
      have released := ok.2.released (by simp [state, drives])
      rw [hear_eq]
      refine ok.goesOn (n := n) (by simp [state, inAttempt]) rfl released rfl rfl rfl
        fun c left _ at_left => ⟨_, rfl, ?_⟩
      simp only [state, attemptLeft, Option.some.injEq] at at_left
      simp only [← at_left, Config.ticks, Config.answerDeadline, Config.gapTime] at early ⊢
      omega
    · exact ok
  case answerDeadline line =>
    split
    · rename_i state _
      have released := ok.2.released (by simp [state, drives])
      rw [hear_eq]
      refine ok.goesOn (n := Config.ticks * Config.answerDeadline) (by simp [state, inAttempt]) rfl released rfl rfl rfl
        fun c left _ at_left => ⟨_, rfl, ?_⟩
      simp only [state, attemptLeft, Option.some.injEq] at at_left
      simp only [← at_left, Config.ticks, Config.answerDeadline, Config.gapTime]
      omega
    · exact ok
  case answerEnd line =>
    split
    · rename_i c state capture
      have released := ok.2.released (by simp [state, drives])
      have ends := takeAnswer_endAt c.inCount (s.btx.lineWith line)
      rw [handService_fen, handService_btx, hear_eq]
      refine ok.goesOn (by simp [state, inAttempt]) rfl released rfl rfl rfl
        fun c' left at_c' at_left => ⟨_, rfl, ?_⟩
      obtain rfl := Option.some.inj (capture.symm.trans at_c')
      simp only [state, attemptLeft, Option.some.injEq] at at_left
      simp only [← at_left, Config.ticks, Config.gapTime]
      omega
    · exact ok
  case attemptEnd line held =>
    split
    · rename_i r it c state _ _
      obtain ⟨-, -, engine, stage, waiting, notDue⟩ := ok.inProgress (by simp [state, inAttempt])
      have released := ok.2.released (by simp [state, drives])
      exact attemptEnded_busOk r held rfl released waiting notDue engine stage
    · rename_i item
      split
      · rename_i due
        exact judgeNext_busOk item due.1 ok
      · exact ok
    · exact ok
  case replySent =>
    repeat' split
    · exact sessionEnd_busOk .close (by simpa using ok)
    all_goals simpa using ok
  case silenceTimeout =>
    split
    · exact sessionEnd_busOk .silence ok
    · exact ok
  all_goals
    repeat' split
  all_goals simpa using ok

end

/-- Settles O56: an item starts only with time for its attempt, each state of the attempt takes no more than its part of
that time, and a judgement is left due only between two items. -/
theorem stepKeepsTheBudget : Obligations.StepKeepsTheBudget := by
  intro s t budget driver next
  rw [← busOk_iff]
  exact step_keeps (P := fun s => BusOk s.fen s.btx) (fun _ _ ok => ok)
    (fun _ _ _ => exec_keeps (P := fun s => BusOk s.fen s.btx) (fun _ _ ok => ok)
      (fun _ _ _ _ _ stands _ ok => BusOk.ownerEffect stands ok) (fun c _ _ ok => BusOk.eventEffect c ok))
    ((busOk_iff s).mpr ⟨budget, driver⟩) next

end Sys2Proof.Machine

namespace Sys2Proof.Machine

/-! ### When a request command is taken (R150, R160, R176) -/

/-- A request whose turn has come is answered by what its owner does. -/
theorem answers_of_effect {c : Instr} {r : Request} {tag : Byte} {payload : List Byte} {st : Status} {data : List Byte}
    {s t : State} (stands : requestOf c = some (r, tag, payload)) (turn : ItsTurn r tag payload s)
    (replies : ownerEffect c s = reply tag st data t) : Answers c tag st data s t :=
  answers_of_takeRequest (exec_request stands s) turn replies

/-- A request command whose turn has come is its owner's effect. -/
theorem exec_of_itsTurn {c : Instr} {r : Request} {tag : Byte} {payload : List Byte} {s : State}
    (stands : requestOf c = some (r, tag, payload)) (turn : ItsTurn r tag payload s) :
    exec c s = .next (ownerEffect c s) := by
  rw [exec_request stands, takeRequest_of_itsTurn _ turn]

theorem isRequest_iff (r : Request) (tag : Byte) (payload : List Byte) (p : Place) :
    isRequest r tag payload p = true ↔ p.tag = tag ∧ p.kind = r.code ∧ p.payload = payload := by
  simp [isRequest, and_assoc]

theorem heldBack_eq_false (r : Request) (f : Fen) :
    heldBack r f = false ↔ (f.resetPending = true → r.owner ≠ .fen ∧ r ≠ .reset) := by
  cases pending : f.resetPending <;> simp [heldBack, pending]

/-- A place is one an owner looks for when it waits there. -/
theorem waitsAt_iff (o : Owner) (p : Place) :
    (p.phase == .waiting && ((requestOfKind p.kind).map Request.owner == some o)) = true ↔
      p.phase = .waiting ∧ ∃ x, requestOfKind p.kind = some x ∧ x.owner = o := by
  simp

theorem waitingReset_iff (p : Place) :
    waitingReset p = true ↔ p.phase = .waiting ∧ p.kind = 0x06 ∧ (p.payload = [0] ∨ p.payload = [1]) := by
  simp [waitingReset, and_assoc, Request.code]

/-- No place passes a test that asks for a waiting one. -/
theorem eq_false_iff_of_waiting {p : Place} {b : Bool} {q : Prop} (test : b = true ↔ p.phase = .waiting ∧ q) :
    b = false ↔ (p.phase = .waiting → ¬ q) := by
  rw [← Bool.not_eq_true, test, not_and]

theorem oldest_eq_some (l : Link) (o : Owner) (p : Place) :
    l.oldest o = some p ↔
      (p.phase = .waiting ∧ ∃ x, requestOfKind p.kind = some x ∧ x.owner = o)
      ∧ ∃ before after, l.places = before ++ p :: after
        ∧ ∀ q ∈ before, q.phase = .waiting →
            (∀ x, requestOfKind q.kind = some x → x.owner ≠ o)
            ∧ ¬ (q.kind = 0x06 ∧ (q.payload = [0] ∨ q.payload = [1])) := by
  unfold Link.oldest
  rw [find?_upToReset, waitsAt_iff]
  refine and_congr_right fun _ => exists_congr fun before => exists_congr fun after => and_congr_right fun _ =>
    forall_congr' fun q => imp_congr_right fun _ => ?_
  rw [eq_false_iff_of_waiting (waitsAt_iff o q), eq_false_iff_of_waiting (waitingReset_iff q), ← forall_and]
  refine forall_congr' fun _ => ?_
  rw [not_exists]
  exact and_congr_left fun _ => forall_congr' fun x => not_and

theorem itsTurn_iff (r : Request) (tag : Byte) (payload : List Byte) (s : State) :
    ItsTurn r tag payload s ↔
      (∃ p, s.link.oldest r.owner = some p ∧ p.tag = tag ∧ p.kind = r.code ∧ p.payload = payload)
      ∧ (s.fen.resetPending = true → r.owner ≠ .fen ∧ r ≠ .reset) := by
  unfold ItsTurn mayTake
  rw [Bool.and_eq_true, Bool.not_eq_true', heldBack_eq_false]
  refine and_congr_left fun _ => ?_
  cases s.link.oldest r.owner with
  | none => simp
  | some p => simp [isRequest_iff]

/-- Settles O3: the oldest place that waits at the owner is found among those up to the first RESET that waits. -/
theorem requestCommandBringsTheFrame : Obligations.RequestCommandBringsTheFrame := by
  refine ⟨fun r tag payload s => ?_, fun c r tag payload s stands => ⟨fun waits notYet => ?_, fun notWaiting short hunts => ?_,
    fun notWaiting noFrame => ?_⟩⟩
  · rw [itsTurn_iff]
    refine and_congr_left fun _ => ⟨?_, ?_⟩
    · rintro ⟨p, oldest, tag_eq, kind, payload_eq⟩
      obtain ⟨⟨phase, -⟩, before, after, places, none_before⟩ := (oldest_eq_some _ _ _).mp oldest
      exact ⟨before, p, after, places, phase, tag_eq, kind, payload_eq, none_before⟩
    · rintro ⟨before, p, after, places, phase, tag_eq, kind, payload_eq, none_before⟩
      refine ⟨p, (oldest_eq_some _ _ _).mpr ⟨⟨phase, r, ?_, rfl⟩, before, after, places, none_before⟩, tag_eq, kind,
        payload_eq⟩
      rw [kind, requestOfKind_code]
  · rw [exec_request stands, takeRequest_of_not_itsTurn _ waits notYet]
  · have arrives : arrive r tag payload s = s.setLink
        (takeFrame { kind := r.code, tag := tag, payload := payload, check := frameCheck r.code tag payload }
          { s.link with breakHold := false }) := if_pos ⟨hunts, short⟩
    rw [exec_request stands, takeRequest_of_not_waiting _ notWaiting, arrives]
    exact ⟨fun turn => (if_pos turn).trans (exec_of_itsTurn stands turn).symm, fun notYet => if_neg notYet⟩
  · have nothing : arrive r tag payload s = s := if_neg fun ⟨hunts, short⟩ => by
      rcases noFrame with long | collects
      · exact absurd short (Nat.not_le.mpr long)
      · exact collects hunts
    rw [exec_request stands, takeRequest_of_not_waiting _ notWaiting, nothing, mayTake_of_not_waiting notWaiting]
    rfl

/-! ### Reset (R20, R46, R72, R91, R117, R137, R151) -/

/-- Settles O5: the values each block begins with. -/
theorem powerOnBlockValues : Obligations.PowerOnBlockValues := by
  intro lr1 lr0 s
  exact ⟨_, exec_powerOn lr1 lr0 s, fun _ => tget_replicate _ _, fun _ => tget_replicate _ _, rfl, rfl, rfl, rfl, rfl, rfl,
    rfl, rfl, rfl, rfl, rfl, rfl, rfl, rfl, rfl, rfl, rfl, rfl, rfl, rfl, rfl, rfl, fun _ => tget_replicate _ _, rfl, rfl,
    fun _ => tget_replicate _ _, rfl, rfl, rfl, rfl, rfl, fun _ => tget_replicate _ _, fun _ => tget_replicate _ _, rfl, rfl⟩

theorem placesInv_reset : PlacesInv State.reset.link :=
  ⟨Nat.zero_le _, List.nodup_nil, .refl _, Nat.zero_le _, Nat.zero_le _, Nat.zero_le _, rfl⟩

theorem sessionInv_reset : SessionInv State.reset :=
  ⟨fun _ => ⟨rfl, rfl, rfl, rfl, rfl, rfl, fun _ mem => nomatch mem⟩, fun isOpen => absurd rfl isOpen,
    fun _ mem => nomatch mem⟩

/-- Settles O6: every block's invariants hold of the values it begins with. -/
theorem soundAtReset : Obligations.SoundAtReset := by
  have routes : RoutesOk State.reset.scm State.reset.rst := .of_free (fun i => by simp [State.reset, Scm.initial]) setInv_initial
  obtain ⟨budget, driver⟩ := (busOk_iff State.reset).mp .initial
  exact ⟨scheduleInv_initial, routes.1, ticketInv_of_none (fun _ _ item => nomatch item) rfl (Nat.zero_le _), budget, driver,
    .initial, routes.2, sendInv_of_cleared rfl (Nat.zero_le _) rfl, sessionInv_reset, placesInv_reset⟩

/-! ### Replies (R157, R161) -/

theorem replyKind_eq (kind : Byte) : replyKind kind = if (requestOfKind kind).isSome then kind + 0x80 else 0xFF := by
  unfold replyKind
  split
  · rename_i known
    simp [known]
  · rename_i unknown
    simp [unknown]

/-- Settles O10: the code tables, and the reply of the place that has the tag. -/
theorem replyAnswersTheRequest : Obligations.ReplyAnswersTheRequest := by
  refine ⟨by decide, ⟨by decide, fun e => ?_, by decide, by decide, by decide, by decide, by decide⟩,
    fun tag st data s p at_tag => ?_⟩
  · cases e <;> rfl
  · simp only [reply, linkReply, at_tag, setPhase, replyTo, replyKind_eq, beq_iff_eq]

/-! ### Fields of the schedule memory's requests (R2, R8, R92) -/

theorem kindOf_eq_some (b : Byte) (k : TransKind) : kindOf b = some k ↔ k.code = b := by
  unfold kindOf
  cases k <;> simp only [TransKind.code] <;> grind

theorem countsOk_iff (k : TransKind) (i o : Nat) :
    countsOk k i o = true ↔
      match k with
      | .read => 1 ≤ i ∧ i ≤ 16 ∧ o = 0
      | .write => i = 0 ∧ 1 ≤ o ∧ o ≤ 16
      | .exchange => 1 ≤ i ∧ i ≤ 16 ∧ 1 ≤ o ∧ o ≤ 16 := by
  cases k <;> simp [countsOk, and_assoc]

theorem dropOf_eq_some (b : Byte) (d : Fin Config.dropCount) : dropOf b = some d ↔ d.val + 1 = b.toNat := by
  unfold dropOf
  split
  · rename_i range
    rw [Option.some.injEq, Fin.ext_iff]
    dsimp only
    omega
  · rename_i range
    refine ⟨(nomatch ·), fun h => absurd ?_ range⟩
    have := d.isLt
    exact ⟨by omega, by simp only [Config.dropCount] at this ⊢; omega⟩

/-- What a request's fields of a transaction are when they are in range (R2, R92, R94). -/
theorem parseTransaction_eq_some {kind drop first i o retries : Byte} {t : Transaction} :
    parseTransaction kind drop first i o retries = some t ↔
      (t.kind.code = kind ∧ t.drop.val + 1 = drop.toNat ∧ t.first = first.toNat ∧ t.inCount = i.toNat
        ∧ t.outCount = o.toNat ∧ t.retries = retries.toNat)
      ∧ countsOk t.kind i.toNat o.toNat = true ∧ first.toNat ≤ 63 ∧ first.toNat + max i.toNat o.toNat ≤ 64
        ∧ retries.toNat ≤ 3 := by
  constructor
  · intro parses
    unfold parseTransaction at parses
    split at parses
    · rename_i k d at_kind at_drop
      split at parses
      · rename_i ranges
        cases parses
        simp only [Bool.and_eq_true, decide_eq_true_eq, and_assoc] at ranges
        exact ⟨⟨(kindOf_eq_some _ _).mp at_kind, (dropOf_eq_some _ _).mp at_drop, rfl, rfl, rfl, rfl⟩, ranges⟩
      · cases parses
    · cases parses
  · obtain ⟨k, d, f, i', o', n⟩ := t
    rintro ⟨⟨at_kind, at_drop, rfl, rfl, rfl, rfl⟩, counts, start, window, few⟩
    unfold parseTransaction
    rw [(kindOf_eq_some _ _).mpr at_kind, (dropOf_eq_some _ _).mpr at_drop]
    simp [counts, start, window, few]

theorem toNat_eq_zero {b : Byte} : b.toNat = 0 ↔ b = 0 :=
  ⟨fun h => BitVec.eq_of_toNat_eq h, fun h => by rw [h]; rfl⟩

/-- The counts of the kind a code names (R2). -/
theorem exists_kind_iff (kind i o : Byte) :
    (∃ k : TransKind, k.code = kind ∧ countsOk k i.toNat o.toNat = true) ↔
      (kind = 1 ∧ 1 ≤ i.toNat ∧ i.toNat ≤ 16 ∧ o = 0) ∨ (kind = 2 ∧ i = 0 ∧ 1 ≤ o.toNat ∧ o.toNat ≤ 16)
        ∨ (kind = 3 ∧ 1 ≤ i.toNat ∧ i.toNat ≤ 16 ∧ 1 ≤ o.toNat ∧ o.toNat ≤ 16) := by
  simp only [countsOk_iff, toNat_eq_zero]
  constructor
  · rintro ⟨k, rfl, counts⟩
    cases k with
    | read => exact .inl ⟨rfl, counts⟩
    | write => exact .inr (.inl ⟨rfl, counts⟩)
    | exchange => exact .inr (.inr ⟨rfl, counts⟩)
  · rintro (⟨rfl, counts⟩ | ⟨rfl, counts⟩ | ⟨rfl, counts⟩)
    · exact ⟨.read, rfl, counts⟩
    · exact ⟨.write, rfl, counts⟩
    · exact ⟨.exchange, rfl, counts⟩

theorem parseTransaction_isSome (kind drop first i o retries : Byte) :
    (parseTransaction kind drop first i o retries).isSome = true ↔
      (∃ k : TransKind, k.code = kind ∧ countsOk k i.toNat o.toNat = true)
      ∧ 1 ≤ drop.toNat ∧ drop.toNat ≤ 24 ∧ first.toNat ≤ 63
      ∧ first.toNat + max i.toNat o.toNat ≤ 64 ∧ retries.toNat ≤ 3 := by
  rw [Option.isSome_iff_exists]
  simp only [parseTransaction_eq_some]
  constructor
  · rintro ⟨t, ⟨at_kind, at_drop, -⟩, counts, start, window, few⟩
    have := t.drop.isLt
    simp only [Config.dropCount] at this
    exact ⟨⟨t.kind, at_kind, counts⟩, by omega, by omega, start, window, few⟩
  · rintro ⟨⟨k, at_kind, counts⟩, low, high, start, window, few⟩
    have isDrop : drop.toNat - 1 < Config.dropCount := by simp only [Config.dropCount]; omega
    exact ⟨{ kind := k, drop := ⟨drop.toNat - 1, isDrop⟩, first := first.toNat, inCount := i.toNat, outCount := o.toNat,
             retries := retries.toNat }, ⟨at_kind, by dsimp only; omega, rfl, rfl, rfl, rfl⟩, counts, start, window, few⟩

/-- The cost of a transaction lies between that of one value and that of an exchange of 16 each way (R63). -/
theorem cost_bounds {t : Transaction} (counts : countsOk t.kind t.inCount t.outCount = true) :
    t.cost = 162 + 20 * (t.outCount + t.inCount) ∧ 182 ≤ t.cost ∧ t.cost ≤ 802 := by
  have sum : 1 ≤ t.outCount + t.inCount ∧ t.outCount + t.inCount ≤ 32 := by
    have := (countsOk_iff _ _ _).mp counts
    cases kind : t.kind <;> simp only [kind] at this <;> omega
  have cost : t.cost = 162 + 20 * (t.outCount + t.inCount) := rfl
  exact ⟨cost, by omega, by omega⟩

theorem flagOfByte_eq_some (b : Byte) (f : Bool) : flagOfByte b = some f ↔ b = flagByte f := by
  unfold flagOfByte flagByte
  cases f <;> grind

/-- The route a request's fields give, when they are in range (R2, R180). -/
theorem parseRoute_eq_some {flag set offset : Byte} {route : Option Route} :
    parseRoute flag set offset = some route ↔
      (flag = 0 ∧ route = none)
      ∨ (flag = 1 ∧ offset.toNat ≤ 15
          ∧ ∃ w : Fin 16, w.val = set.toNat ∧ route = some { set := w, offset := offset.toNat }) := by
  unfold parseRoute
  split
  · rename_i isFlag
    obtain rfl := (flagOfByte_eq_some _ _).mp isFlag
    simp [flagByte, eq_comm]
  · rename_i isFlag
    obtain rfl := (flagOfByte_eq_some _ _).mp isFlag
    by_cases range : set.toNat < Config.setCount
    · obtain ⟨w, at_set⟩ : ∃ w : Fin Config.setCount, w.val = set.toNat := ⟨⟨_, range⟩, rfl⟩
      have only : ∀ v : Fin 16, v.val = set.toNat ↔ v = w := fun v => by rw [← at_set, Fin.ext_iff]
      simp [indexOf_eq_some at_set, flagByte, only, Nat.lt_succ_iff, eq_comm]
    · have none_set : ∀ v : Fin 16, v.val ≠ set.toNat := fun v same => range (same ▸ v.isLt)
      simp [indexOf_eq_none (Nat.le_of_not_lt range), flagByte, none_set]
  · rename_i noFlag
    have notFlag : ∀ f, flag ≠ flagByte f := fun f same => by
      rw [(flagOfByte_eq_some _ _).mpr same] at noFlag
      cases noFlag
    exact ⟨(nomatch ·), fun h => (h.elim (fun h => notFlag false h.1) fun h => notFlag true h.1).elim⟩

/-- Settles O18: the parsers accept exactly the fields in range. -/
theorem transactionRanges : Obligations.TransactionRanges := by
  refine ⟨fun kind drop first i o retries => ⟨?_, fun t parses => ?_⟩, fun p t route => ?_, fun rst i route => ?_⟩
  · rw [parseTransaction_isSome, exists_kind_iff]
  · obtain ⟨⟨at_kind, at_drop, first_eq, in_eq, out_eq, retries_eq⟩, counts, -⟩ := parseTransaction_eq_some.mp parses
    rw [← in_eq, ← out_eq] at counts ⊢
    exact ⟨at_kind, at_drop, first_eq, rfl, rfl, retries_eq, cost_bounds counts⟩
  · rw [← parseRoute_eq_some]
    unfold parseParams
    split
    · rename_i at_trans at_route
      simp [at_trans, at_route]
    · rename_i missing
      exact ⟨(nomatch ·), fun ⟨at_trans, at_route⟩ => absurd at_route (missing _ _ at_trans)⟩
  · cases route with
    | none => simp [routeFits]
    | some w => simp [routeFits]

end Sys2Proof.Machine

namespace Sys2Proof.Machine

/-! ### The requests of the schedule memory (R9 to R11, R14, R15, R17) -/

/-- The lowest-numbered FREE index (R9). -/
theorem freeIndex_eq_some {m : Scm} {i : Fin Config.entryCount} (free : (tget m.entries i).body = none)
    (lowest : ∀ j, j < i → (tget m.entries j).body ≠ none) : freeIndex m = some i := by
  refine List.find?_eq_some_iff_getElem.mpr ⟨by simp [free], i.val, by simp, by simp, fun j hj => ?_⟩
  have := lowest ⟨j, Nat.lt_trans hj i.isLt⟩ hj
  simpa [Option.isSome_iff_ne_none] using this

theorem freeIndex_eq_none {m : Scm} (full : ∀ i, (tget m.entries i).body ≠ none) : freeIndex m = none := by
  refine List.find?_eq_none.mpr fun i _ => ?_
  simpa using full i

/-- Settles O19: the checks of R9 in their order, and a branch of the taking for each. -/
theorem entryAddCreatesAnEntry : Obligations.EntryAddCreatesAnEntry := by
  intro tag p s turn
  refine ⟨fun none => ?_, fun t route parses => ⟨fun misfits => ?_, fun fits => ⟨fun full => ?_, fun i free lowest => ?_⟩⟩⟩
  · exact answers_of_effect rfl turn (by simp [ownerEffect, takeEntryAdd, none])
  · exact answers_of_effect rfl turn (by simp [ownerEffect, takeEntryAdd, parses, misfits])
  · exact answers_of_effect rfl turn (by simp [ownerEffect, takeEntryAdd, parses, fits, freeIndex_eq_none full])
  · refine answers_of_effect rfl turn ?_
    simp only [ownerEffect, takeEntryAdd, parses, fits, if_true, freeIndex_eq_some free lowest]
    rfl

/-- Settles O20: the handle's checks, then those of the fields, and a branch of the taking for each. -/
theorem entrySetReplacesTheFields : Obligations.EntrySetReplacesTheFields := by
  intro tag index gen p s turn
  refine ⟨fun above => ?_, fun i hi => ⟨fun stale => ?_, fun b body current => ⟨fun none => ?_, fun t route parses =>
    ⟨fun misfits => ?_, fun fits => ?_⟩⟩⟩⟩
  · exact answers_of_effect rfl turn (by simp [ownerEffect, takeEntrySet, indexOf_eq_none (n := Config.entryCount) above])
  · exact answers_of_effect rfl turn
      (by simp [ownerEffect, takeEntrySet, indexOf_eq_some hi, currentBody_eq_none stale])
  · exact answers_of_effect rfl turn
      (by simp [ownerEffect, takeEntrySet, indexOf_eq_some hi, currentBody_eq_some body current, none])
  · exact answers_of_effect rfl turn
      (by simp [ownerEffect, takeEntrySet, indexOf_eq_some hi, currentBody_eq_some body current, parses, misfits])
  · refine answers_of_effect rfl turn ?_
    simp only [ownerEffect, takeEntrySet, indexOf_eq_some hi, currentBody_eq_some body current, parses, fits, if_true]
    rfl

/-- The outputs after an ENTRY-LOAD: those of the window are the values given (R11). -/
theorem loadOutputs_getElem? {offset : Nat} {values outputs : List Word}
    (within : offset + values.length ≤ outputs.length) (k : Nat) :
    (loadOutputs offset values outputs)[k]? =
      if offset ≤ k ∧ k < offset + values.length then values[k - offset]? else outputs[k]? := by
  have length : (outputs.take offset).length = offset := by
    rw [List.length_take]
    omega
  unfold loadOutputs
  rw [List.append_assoc, List.getElem?_append, length]
  split
  · rename_i before
    rw [List.getElem?_take, if_pos before, if_neg (by omega)]
  · rename_i notBefore
    rw [List.getElem?_append]
    split
    · rename_i inside
      rw [if_pos (by omega)]
    · rename_i behind
      rw [if_neg (by omega), List.getElem?_drop]
      congr 1
      omega

/-- Settles O21: the handle's checks, then that of the window; `loadOutputs` is what the outputs become. -/
theorem entryLoadWritesOutputs : Obligations.EntryLoadWritesOutputs := by
  intro tag index gen offset values s turn
  refine ⟨fun above => ?_, fun i hi => ⟨fun stale => ?_, fun b body current => ⟨fun outside => ?_, fun inside length =>
    ⟨loadOutputs offset.toNat values b.outputs, ?_, ?_, loadOutputs_getElem? (by omega)⟩⟩⟩⟩
  · exact answers_of_effect rfl turn
      (by simp [ownerEffect, takeEntryLoad, indexOf_eq_none (n := Config.entryCount) above])
  · exact answers_of_effect rfl turn
      (by simp [ownerEffect, takeEntryLoad, indexOf_eq_some hi, currentBody_eq_none stale])
  · exact answers_of_effect rfl turn
      (by simp [ownerEffect, takeEntryLoad, indexOf_eq_some hi, currentBody_eq_some body current,
        Nat.not_le.mpr outside])
  · refine answers_of_effect rfl turn ?_
    simp only [ownerEffect, takeEntryLoad, indexOf_eq_some hi, currentBody_eq_some body current, inside, if_true]
    rfl
  · rw [loadOutputs_length (by omega), length]

section
variable {tag slot position index gen : Byte} {s : State} {k : Fin Config.slotCount} {i : Fin Config.entryCount}
  {b : EntryBody}

/-- A CHAIN-INSERT of a current handle, by the chain it names (R14). -/
theorem takeChainInsert_of_current (hk : k.val = slot.toNat) (hi : i.val = index.toNat)
    (current : currentBody s.scm i gen = some b) :
    takeChainInsert tag slot position index gen s =
      if (tget s.scm.chains k).length < position.toNat then reply tag .outOfRange [] s
      else if (tget s.scm.chains k).contains i then reply tag .alreadyLinked [] s
      else if Config.chainLimit ≤ (tget s.scm.chains k).length then reply tag .chainFull [] s
      else
        reply tag .ok [byteOf ((tget s.scm.chains k).length + 1)]
          (putChain k (insertAt position.toNat i (tget s.scm.chains k))
            (putEntry i { gen := gen, body := some { b with linkCount := b.linkCount + 1 } } s)) := by
  simp only [takeChainInsert, indexOf_eq_some hk, indexOf_eq_some hi, current]

theorem takeChainInsert_of_stale (hk : k.val = slot.toNat) (hi : i.val = index.toNat)
    (stale : currentBody s.scm i gen = none) :
    takeChainInsert tag slot position index gen s = reply tag .stale [] s := by
  simp only [takeChainInsert, indexOf_eq_some hk, indexOf_eq_some hi, stale]

/-- A slot or an index that is none. -/
theorem takeChainInsert_of_outOfRange (h : Config.slotCount ≤ slot.toNat ∨ Config.entryCount ≤ index.toNat) :
    takeChainInsert tag slot position index gen s = reply tag .outOfRange [] s := by
  unfold takeChainInsert
  split
  · rename_i at_slot at_index
    rcases h with above | above
    · simp [indexOf_eq_none above] at at_slot
    · simp [indexOf_eq_none above] at at_index
  · rfl

theorem takeChainRemove_of_outOfRange (h : Config.slotCount ≤ slot.toNat ∨ Config.entryCount ≤ index.toNat) :
    takeChainRemove tag slot index s = reply tag .outOfRange [] s := by
  unfold takeChainRemove
  split
  · rename_i at_slot at_index
    rcases h with above | above
    · simp [indexOf_eq_none above] at at_slot
    · simp [indexOf_eq_none above] at at_index
  · rfl

/-- A CHAIN-REMOVE, by the chain it names (R15). -/
theorem takeChainRemove_of_index (hk : k.val = slot.toNat) (hi : i.val = index.toNat) :
    takeChainRemove tag slot index s =
      if (tget s.scm.chains k).contains i then
        reply tag .ok [byteOf ((tget s.scm.chains k).length - 1)]
          (putChain k ((tget s.scm.chains k).erase i) (unlinkEntry i s))
      else reply tag .notLinked [] s := by
  simp only [takeChainRemove, indexOf_eq_some hk, indexOf_eq_some hi]

end

/-- Settles O24: the checks of R14 in their order, and a branch of the taking for each. -/
theorem chainInsertLinksAnEntry : Obligations.ChainInsertLinksAnEntry := by
  intro tag slot position index gen s turn
  refine ⟨fun above => ?_, fun k i hk hi => ⟨fun stale => ?_, fun b body current => ?_⟩⟩
  · exact answers_of_effect rfl turn (takeChainInsert_of_outOfRange above)
  · exact answers_of_effect rfl turn (takeChainInsert_of_stale hk hi (currentBody_eq_none stale))
  · have takes := takeChainInsert_of_current (tag := tag) (position := position) hk hi (currentBody_eq_some body current)
    refine ⟨fun beyond => ?_, fun within linked => ?_, fun within notLinked full => ?_, fun within notLinked room => ?_⟩
    · exact answers_of_effect rfl turn (takes.trans (if_pos beyond))
    · refine answers_of_effect rfl turn (takes.trans ?_)
      rw [if_neg (Nat.not_lt.mpr within), if_pos (List.contains_iff_mem.mpr linked)]
    · refine answers_of_effect rfl turn (takes.trans ?_)
      rw [if_neg (Nat.not_lt.mpr within), if_neg (mt List.contains_iff_mem.mp notLinked), if_pos full]
    · refine answers_of_effect rfl turn (takes.trans ?_)
      rw [if_neg (Nat.not_lt.mpr within), if_neg (mt List.contains_iff_mem.mp notLinked), if_neg (Nat.not_le.mpr room)]
      rfl

/-- Settles O25: the index is taken out of the chain at its one place. -/
theorem chainRemoveUnlinksAnEntry : Obligations.ChainRemoveUnlinksAnEntry := by
  intro tag slot index s turn
  refine ⟨fun above => ?_, fun k i hk hi => ⟨fun notLinked => ?_, fun before after chain first => ?_⟩⟩
  · exact answers_of_effect rfl turn (takeChainRemove_of_outOfRange above)
  · exact answers_of_effect rfl turn
      ((takeChainRemove_of_index hk hi).trans (if_neg (mt List.contains_iff_mem.mp notLinked)))
  · have linked : (tget s.scm.chains k).contains i = true := by simp [chain]
    have erased : (tget s.scm.chains k).erase i = before ++ after := by
      rw [chain, List.erase_append_right _ first, List.erase_cons_head]
    have length : (tget s.scm.chains k).length - 1 = before.length + after.length := by
      rw [chain, List.length_append, List.length_cons]
      omega
    refine answers_of_effect rfl turn ((takeChainRemove_of_index hk hi).trans ?_)
    rw [if_pos linked, erased, length]
    rfl

theorem isSchedLen_iff (len : Byte) : isSchedLen len.toNat = true ↔ len ∈ ([1, 2, 4, 8, 16, 32] : List Byte) := by
  simp only [isSchedLen, Bool.or_eq_true, beq_iff_eq, List.mem_cons, List.not_mem_nil, or_false, ← BitVec.toNat_inj]
  simp [or_assoc]

/-- Settles O27: a schedule length is one of its six values. -/
theorem scheduleLengthSetsL : Obligations.ScheduleLengthSetsL := by
  refine fun tag len s turn => ⟨fun other => ?_, fun isLen => ?_⟩
  · exact answers_of_effect rfl turn (if_neg (mt (isSchedLen_iff len).mp other))
  · exact answers_of_effect rfl turn (if_pos ((isSchedLen_iff len).mpr isLen))

end Sys2Proof.Machine

namespace Sys2Proof.Machine

/-! ### BUS-CONFIG (R24) -/

/-- A configuration whose budget holds a probe (R24). -/
theorem probe_fits_iff (len guard : Nat) : Config.probeCost ≤ len - Config.beaconCost - guard ↔ 202 + 68 + guard ≤ len := by
  have : Config.probeCost = 202 := rfl
  have : Config.beaconCost = 68 := rfl
  omega

theorem rateOf_eq_none {b : Byte} (above : 3 < b.toNat) : rateOf b = none := by
  have other : ∀ c : Byte, c.toNat ≤ 3 → b ≠ c := fun c low same => by
    rw [same] at above
    omega
  unfold rateOf
  rw [if_neg (other 0 (by decide)), if_neg (other 1 (by decide)), if_neg (other 2 (by decide)),
    if_neg (other 3 (by decide))]

/-- The rate of a code, and its bit-times in four frame periods of 125 µs. -/
theorem rateOf_of_code {rate : Byte} {r : BusRate} {n : Nat}
    (code : (rate, r, n) ∈ ([(0, .k250, 125), (1, .k500, 250), (2, .m1, 500), (3, .m2, 1000)] : List (Byte × BusRate × Nat))) :
    rateOf rate = some r ∧ r.per500us = n := by
  simp only [List.mem_cons, Prod.mk.injEq, List.not_mem_nil, or_false] at code
  rcases code with ⟨rfl, rfl, rfl⟩ | ⟨rfl, rfl, rfl⟩ | ⟨rfl, rfl, rfl⟩ | ⟨rfl, rfl, rfl⟩ <;> exact ⟨rfl, rfl⟩

section
variable {tag rate period guard settling : Byte} {s : State}

theorem takeBusConfig_of_outOfRange (stopped : s.fen.engine = .stopped)
    (none : parseConfig rate period guard settling = none) :
    takeBusConfig tag rate period guard settling s = reply tag .outOfRange [] s := by
  simp [takeBusConfig, stopped, none]

/-- A BUS-CONFIG in STOPPED whose values are in range, by the costs that are queued (R24). -/
theorem takeBusConfig_of_config {c : BusConfig} (stopped : s.fen.engine = .stopped)
    (parses : parseConfig rate period guard settling = some c) :
    takeBusConfig tag rate period guard settling s =
      if ∃ h ∈ s.fen.queue, c.budget < h.trans.cost then reply tag .conflict [] s
      else reply tag .ok (linkWord (wordOf c.frameLen) ++ linkWord (wordOf c.budget)) (withConfig c s) := by
  simp [takeBusConfig, stopped, parses]

end

/-- Settles O28: a rate code gives its rate, and F and B are those of the four values. -/
theorem busConfigReplacesTheConfiguration : Obligations.BusConfigReplacesTheConfiguration := by
  intro tag rate period guard settling s turn
  refine ⟨fun notStopped => ?_, fun stopped above => ?_, fun r n stopped code => ?_⟩
  · exact answers_of_effect rfl turn (if_pos notStopped)
  · exact answers_of_effect rfl turn
      (takeBusConfig_of_outOfRange stopped (by simp [parseConfig, rateOf_eq_none above]))
  · obtain ⟨at_rate, rfl⟩ := rateOf_of_code code
    have parses : parseConfig rate period guard settling =
        if 4 ≤ period.toNat ∧ period.toNat ≤ 64 ∧ 1 ≤ settling.toNat
            ∧ 202 + 68 + guard.toNat ≤ r.per500us * period.toNat / 4 then
          some { rate := r, period := period.toNat, guard := guard.toNat, settling := settling.toNat }
        else none := by
      simp only [parseConfig, at_rate, BusConfig.budget, BusConfig.frameLen, probe_fits_iff]
    refine ⟨fun outside => ?_, fun inside conflict => ?_, fun inside fit => ?_⟩
    · exact answers_of_effect rfl turn (takeBusConfig_of_outOfRange stopped (parses.trans (if_neg outside)))
    · exact answers_of_effect rfl turn
        ((takeBusConfig_of_config stopped (parses.trans (if_pos inside))).trans (if_pos conflict))
    · refine answers_of_effect rfl turn
        ((takeBusConfig_of_config stopped (parses.trans (if_pos inside))).trans ((if_neg ?_).trans ?_))
      · rintro ⟨h, mem, above⟩
        exact absurd (fit h mem) (Nat.not_le.mpr above)
      · rw [linkWord_wordOf, linkWord_wordOf]
        rfl

/-! ### START, HALT, QUIET and WAKE (R27 to R29, R140 to R149) -/

/-- Settles O29: the branches of the taking, by the engine state and the line. -/
theorem startBeginsTheFirstFrame : Obligations.StartBeginsTheFirstFrame := by
  intro tag line s turn
  refine ⟨fun running => ?_, fun other => ?_, fun stopped => ⟨fun idle => ?_, fun busy => ?_⟩⟩
  · exact answers_of_effect rfl turn (by simp [ownerEffect, takeStart, running])
  · exact answers_of_effect rfl turn (by rcases other with h | h | h <;> simp [ownerEffect, takeStart, h])
  · rw [exec_of_itsTurn rfl turn]
    simp only [ownerEffect, takeStart, stopped, idle, if_true, enterEngine, setFen_fen, setFen_setFen]
    rfl
  · rw [exec_of_itsTurn rfl turn]
    simp only [ownerEffect, takeStart, stopped, busy, if_false, enterEngine, setFen_fen, setFen_setFen]

/-- What entering STOPPED makes of the state: the skips of a periodic stage are raised first (R28, R45). -/
theorem enterStopped_eq (cause : EngineCause) (s : State) :
    enterStopped cause s =
      offerEngine { new := .stopped, left := s.fen.engine, cause := cause, frame := s.fen.frame }
        ((if s.fen.stage = .periodic ∧ 0 < s.fen.skipCount then offerFrame (skipEvent s.fen) s else s).setFen
          { s.fen with
            engine := .stopped, timer := none, plan := [], planPos := 0, stage := .idle, settling := 0,
            startPending := false, judgeDue := false }) := by
  unfold enterStopped raiseSkips enterEngine
  by_cases periodic : s.fen.stage = .periodic
  · by_cases skips : 0 < s.fen.skipCount
    · simp [periodic, skips]
    · simp [periodic, skips]
  · simp [periodic]

/-- Settles O30: the branches of the taking, by the engine state, the item in progress and the quiet-pending mark. -/
theorem haltStopsTheEngine : Obligations.HaltStopsTheEngine := by
  intro tag s turn
  refine ⟨fun stopped => ?_, fun quiet => ?_, fun halting => ?_, fun running item => ?_, fun running item => ?_,
    fun waking stage => ?_⟩
  · exact answers_of_effect rfl turn (by simp [ownerEffect, takeHalt, stopped])
  · exact answers_of_effect rfl turn (by simp [ownerEffect, takeHalt, quiet])
  · rw [exec_of_itsTurn rfl turn]
    simp [ownerEffect, takeHalt, halting]
  · rw [exec_of_itsTurn rfl turn]
    simp [ownerEffect, takeHalt, running, item, enterEngine]
  · have takes : takeHalt tag s = carryQuiet .host (reply tag .ok [] (enterStopped .host s)) := by
      simp [takeHalt, running, item]
    refine ⟨fun noQuiet => ?_, fun quiet => ?_⟩
    · refine answers_of_effect rfl turn (takes.trans ?_)
      rw [enterStopped_eq, running]
      exact if_neg (by simp [noQuiet])
    · rw [exec_of_itsTurn rfl turn]
      refine congrArg _ (takes.trans ?_)
      rw [enterStopped_eq, running]
      exact if_pos (by simp [quiet])
  · refine answers_of_effect rfl turn ?_
    have takes : takeHalt tag s =
        reply tag .ok [] (answerDeferred (fun r => r == .wake) .aborted [] (enterStopped .host s)) := by
      simp [takeHalt, waking]
    refine takes.trans ?_
    rw [enterStopped_eq, waking, if_neg (fun h => stage h.1)]

/-- What going quiet makes of the state (R141 to R143). -/
theorem goQuiet_eq (cause : EngineCause) (s : State) :
    goQuiet cause s =
      offerEngine { new := .quiet, left := s.fen.engine, cause := cause, frame := s.fen.frame }
        ((s.setBtx (btxHand { what := .quiet, rate := s.fen.config.rate } s.btx)).setFen
          { s.fen with
            engine := .quiet, timer := none, plan := [], planPos := 0, stage := .idle, settling := 0,
            quietPending := false, startPending := false, watching := false, lowMeasure := 0 }) := rfl

/-- Settles O31: the branches of the taking, by the engine state. -/
theorem quietSendsTheBusQuiet : Obligations.QuietSendsTheBusQuiet := by
  intro tag s turn
  refine ⟨fun running => ?_, fun halting => ?_, fun quiet => ?_, fun stopped => ?_, fun waking => ?_⟩
  · rw [exec_of_itsTurn rfl turn]
    simp only [ownerEffect, takeQuiet, running]
  · exact answers_of_effect rfl turn (by simp [ownerEffect, takeQuiet, halting])
  · exact answers_of_effect rfl turn (by simp [ownerEffect, takeQuiet, quiet])
  · refine answers_of_effect rfl turn ?_
    simp only [ownerEffect, takeQuiet, stopped]
    rw [goQuiet_eq, stopped]
    rfl
  · refine answers_of_effect rfl turn ?_
    simp only [ownerEffect, takeQuiet, waking]
    rw [goQuiet_eq, waking]
    rfl

/-- What entering WAKING makes of the state (R147). -/
theorem enterWaking_eq (cause : EngineCause) (s : State) :
    enterWaking cause s =
      offerEngine { new := .waking, left := s.fen.engine, cause := cause, frame := s.fen.frame }
        ((s.setBtx (btxHand { what := .resume, rate := s.fen.config.rate } s.btx)).setFen
          { s.fen with
            engine := .waking, jamCount := 0, settling := s.fen.config.settling, watching := false, lowMeasure := 0,
            timer := if s.btx.state = .idle then some 0 else none }) := by
  have timer : (if (s.btx.state == .idle) = true then some 0 else none : Option Nat) =
      if s.btx.state = .idle then some 0 else none := by simp only [beq_iff_eq]
  show offerEngine _ (State.setFen _ { s.fen with
    engine := .waking, jamCount := 0, settling := s.fen.config.settling, watching := false, lowMeasure := 0,
    timer := if (s.btx.state == .idle) = true then some 0 else none }) = _
  rw [timer]
  rfl

/-- Settles O32: the branches of the taking, by the engine state. -/
theorem wakeEntersWaking : Obligations.WakeEntersWaking := by
  intro tag s turn
  refine ⟨fun other => ?_, fun waking => ?_, fun quiet => ?_⟩
  · exact answers_of_effect rfl turn (by rcases other with h | h | h <;> simp [ownerEffect, takeWake, h])
  · rw [exec_of_itsTurn rfl turn]
    simp only [ownerEffect, takeWake, waking]
  · rw [exec_of_itsTurn rfl turn]
    simp only [ownerEffect, takeWake, quiet]
    rw [enterWaking_eq, quiet]
    rfl

end Sys2Proof.Machine

namespace Sys2Proof.Machine

/-! ### The idle tail (R39) -/

theorem idleTail_iff (f : Fen) :
    idleTail f = true ↔ f.engine = .running ∧ f.stage = .adHoc ∧ f.item = none ∧ f.judgeDue = false := by
  simp [idleTail, and_assoc]

theorem examineAfter_of_not_tail {line : List Level} {s : State} (notTail : ¬ idleTail s.fen = true) :
    examineAfter line s = s := if_neg notTail

/-- In the idle tail the line passes and the queue is served from its head. -/
theorem examineAfter_of_tail {line : List Level} {s : State} (tail : idleTail s.fen = true) :
    examineAfter line s =
      serveAdHoc s.fen.queue
        ((s.setFen { s.fen with timer := s.fen.timer.map (· + (s.btx.heard ++ line).length) }).setBtx
          (btxHear s.busRate (s.btx.heard ++ line).length (s.btx.heard ++ line) s.btx)) := by
  obtain ⟨-, stage, -⟩ := (idleTail_iff _).mp tail
  have stands : { s.fen with timer := s.fen.timer.map (· + (s.btx.heard ++ line).length), stage := .adHoc } =
      { s.fen with timer := s.fen.timer.map (· + (s.btx.heard ++ line).length) } := by rw [← stage]
  refine (if_pos tail).trans ?_
  show serveAdHoc s.fen.queue
      ((s.setFen { s.fen with timer := s.fen.timer.map (· + (s.btx.heard ++ line).length), stage := .adHoc }).setBtx
        (btxHear s.busRate (s.btx.heard ++ line).length (s.btx.heard ++ line) s.btx)) = _
  rw [stands]

/-! ### SUBMIT (R93, R94) -/

/-- The number a SUBMIT issues, among the words after the counter (R93). -/
theorem nextTicket_first_free {f : Fen} (few : ticketCount f ≤ 16) :
    nextTicket f ≠ f.ticket ∧ nextTicket f ∉ outstandingTickets f
      ∧ ∀ k : Word, 0 < k → k < nextTicket f - f.ticket → f.ticket + k ∈ outstandingTickets f := by
  obtain ⟨j, small, next, free, earlier⟩ := nextTicket_spec few
  have steps : (wordOf (j + 1)).toNat = j + 1 := wordOf_toNat (by omega)
  have distance : nextTicket f - f.ticket = wordOf (j + 1) := by
    rw [next]
    generalize wordOf (j + 1) = w
    bv_omega
  refine ⟨fun same => ?_, free, fun k positive below => ?_⟩
  · rw [same, BitVec.sub_self] at distance
    rw [← distance] at steps
    simp at steps
  · rw [distance, BitVec.lt_def, steps] at below
    rw [BitVec.lt_def] at positive
    obtain ⟨i, at_i⟩ : ∃ i, k.toNat = i + 1 := ⟨k.toNat - 1, by simp at positive; omega⟩
    have word : k = wordOf (i + 1) := BitVec.eq_of_toNat_eq (by rw [wordOf_toNat (by omega), at_i])
    rw [word]
    exact earlier i (by omega)

section
variable {tag kind drop first i o retries force : Byte} {values : List Word} {line : List Level} {s : State}
  {t : Transaction}

theorem parseSubmit_eq_none
    (outside : parseTransaction kind drop first i o retries = none ∨ (force ≠ 0 ∧ force ≠ 1)) :
    parseSubmit kind drop first i o retries force = none := by
  unfold parseSubmit
  split
  · rename_i at_trans at_force
    have isFlag := (flagOfByte_eq_some _ _).mp at_force
    rename_i f
    rcases outside with none | ⟨notZero, notOne⟩
    · simp [none] at at_trans
    · cases f
      · exact absurd isFlag notZero
      · exact absurd isFlag notOne
  · rfl

theorem parseSubmit_eq_some (parses : parseTransaction kind drop first i o retries = some t)
    (flag : force = 0 ∨ force = 1) :
    parseSubmit kind drop first i o retries force = some (t, decide (force = 1)) := by
  rcases flag with rfl | rfl <;> simp [parseSubmit, parses, flagOfByte]

/-- A SUBMIT in range, by its cost and the places that are left (R94). -/
theorem takeSubmit_of_parse {f : Bool} (parses : parseSubmit kind drop first i o retries force = some (t, f)) :
    takeSubmit tag kind drop first i o retries force values line s =
      if s.fen.config.budget < t.cost then reply tag .tooLarge [] s
      else if Config.ticketLimit ≤ ticketCount s.fen
          ∨ Config.reportPlaces ≤ s.rep.queue.length + ticketCount s.fen then reply tag .queueFull [] s
      else
        let s1 := reply tag .accepted (linkWord (nextTicket s.fen))
          (s.setFen { s.fen with
            queue := s.fen.queue ++ [{ ticket := nextTicket s.fen, trans := t, outputs := values, force := f }],
            ticket := nextTicket s.fen })
        if s.fen.queue.isEmpty then examineAfter line s1 else s1 := by
  simp only [takeSubmit, parses]

end

/-- Settles O33: the first free number is at most 17 after the counter; the checks of R94, and in the idle tail the item
is examined. -/
theorem submitIssuesATicket : Obligations.SubmitIssuesATicket := by
  intro tag kind drop first i o retries force values line s turn
  refine ⟨fun outside => ?_, fun t parses flag => ⟨fun large => ?_, fun fits => ⟨fun full => ?_, fun few places => ?_⟩⟩⟩
  · exact answers_of_effect rfl turn (by simp [ownerEffect, takeSubmit, parseSubmit_eq_none outside])
  · exact answers_of_effect rfl turn ((takeSubmit_of_parse (parseSubmit_eq_some parses flag)).trans (if_pos large))
  · refine answers_of_effect rfl turn ((takeSubmit_of_parse (parseSubmit_eq_some parses flag)).trans ?_)
    rw [if_neg (Nat.not_lt.mpr fits), if_pos full]
  · obtain ⟨new, free, earlier⟩ := nextTicket_first_free (Nat.le_of_lt few)
    refine ⟨nextTicket s.fen, new, free, earlier, ?_⟩
    have takes := takeSubmit_of_parse (tag := tag) (values := values) (line := line) (s := s)
      (parseSubmit_eq_some parses flag)
    rw [if_neg (Nat.not_lt.mpr fits), if_neg (by rw [not_or, Nat.not_le, Nat.not_le]; exact ⟨few, places⟩)] at takes
    refine ⟨fun notTail => answers_of_effect rfl turn (takes.trans ?_), fun tail => ?_⟩
    · dsimp only
      split
      · rename_i empty
        refine examineAfter_of_not_tail fun isTail => notTail ?_
        obtain ⟨running, stage, item, notDue⟩ := (idleTail_iff _).mp isTail
        simp only [reply_fen, setFen_fen] at running stage item notDue
        exact ⟨running, stage, item, notDue, List.isEmpty_iff.mp empty⟩
      · rfl
    · obtain ⟨running, stage, item, notDue, empty⟩ := tail
      rw [exec_of_itsTurn rfl turn]
      refine congrArg _ (takes.trans ?_)
      rw [if_pos (by simp [empty])]
      have queue : s.fen.queue ++ [{ ticket := nextTicket s.fen, trans := t, outputs := values, force := decide (force = 1) }]
          = [{ ticket := nextTicket s.fen, trans := t, outputs := values, force := decide (force = 1) }] := by
        rw [empty, List.nil_append]
      refine (examineAfter_of_tail ?isTail).trans (congrArg (fun q => serveAdHoc q _) queue)
      exact (idleTail_iff _).mpr ⟨running, stage, item, notDue⟩

/-! ### CANCEL (R102) -/

theorem takeCancel_of_queued {tag : Byte} {ticket : Word} {line : List Level} {s : State}
    (queued : ticket ∈ s.fen.queue.map AdHoc.ticket) :
    takeCancel tag ticket line s =
      let s1 := reply tag .cancelled []
        (s.setFen { s.fen with queue := s.fen.queue.filter fun h => h.ticket != ticket })
      if s.fen.queue.head?.map AdHoc.ticket = some ticket then examineAfter line s1 else s1 := by
  have any : (s.fen.queue.any fun h => h.ticket == ticket) = true := by
    obtain ⟨h, mem, same⟩ := List.mem_map.mp queued
    exact List.any_eq_true.mpr ⟨h, mem, by simpa using same⟩
  simp only [takeCancel, any, if_true, beq_iff_eq]

theorem takeCancel_of_not_queued {tag : Byte} {ticket : Word} {line : List Level} {s : State}
    (notQueued : ticket ∉ s.fen.queue.map AdHoc.ticket) :
    takeCancel tag ticket line s =
      if ticket ∈ outstandingTickets s.fen then reply tag .inFlight [] s else reply tag .notFound [] s := by
  have any : ¬ (s.fen.queue.any fun h => h.ticket == ticket) = true := fun any => by
    obtain ⟨h, mem, same⟩ := List.any_eq_true.mp any
    exact notQueued (List.mem_map.mpr ⟨h, mem, by simpa using same⟩)
  simp only [takeCancel, if_neg any, holdsTicket_iff]

/-- Settles O34: a ticket is queued, in flight, or not outstanding; in the idle tail a new head is examined. -/
theorem cancelWithdrawsATicket : Obligations.CancelWithdrawsATicket := by
  intro tag ticket line s turn
  refine ⟨fun queued => ⟨fun notTail => answers_of_effect rfl turn ((takeCancel_of_queued queued).trans ?_), fun tail => ?_⟩,
    fun notQueued => ⟨fun flying => ?_, fun none => ?_⟩⟩
  · dsimp only
    split
    · rename_i head
      refine examineAfter_of_not_tail fun isTail => notTail ?_
      obtain ⟨running, stage, item, notDue⟩ := (idleTail_iff _).mp isTail
      exact ⟨running, stage, item, notDue, head⟩
    · rfl
  · obtain ⟨running, stage, item, notDue, head⟩ := tail
    rw [exec_of_itsTurn rfl turn]
    refine congrArg _ ((takeCancel_of_queued queued).trans ?_)
    rw [if_pos head]
    exact examineAfter_of_tail ((idleTail_iff _).mpr ⟨running, stage, item, notDue⟩)
  · exact answers_of_effect rfl turn ((takeCancel_of_not_queued notQueued).trans (if_pos flying))
  · exact answers_of_effect rfl turn ((takeCancel_of_not_queued notQueued).trans (if_neg none))

end Sys2Proof.Machine

namespace Sys2Proof.Machine

/-! ### The requests of the drop manager (R87 to R90) -/

theorem dropOf_eq_none {b : Byte} (outside : b = 0 ∨ 24 < b.toNat) : dropOf b = none := by
  cases at_drop : dropOf b with
  | none => rfl
  | some d =>
    have address := (dropOf_eq_some b d).mp at_drop
    have := d.isLt
    simp only [Config.dropCount] at this
    rcases outside with rfl | above
    · simp at address
    · omega

theorem byteOf_toNat (b : Byte) : byteOf b.toNat = b := by
  simp [byteOf]

theorem dropByte_of_address {b : Byte} {d : Fin Config.dropCount} (address : d.val + 1 = b.toNat) : dropByte d = b := by
  rw [dropByte, address, byteOf_toNat]

/-- The record of a drop as DROP-READ returns it (R89). -/
theorem dropData_eq {b : Byte} {d : Fin Config.dropCount} (address : d.val + 1 = b.toNat) (m : Drm) :
    dropData d m =
      [b, (tget m.drops d).state.code, byteOf (tget m.drops d).threshold, byteOf (tget m.drops d).interval,
        byteOf (tget m.drops d).failures, byteOf (tget m.drops d).due]
      ++ (match (tget m.drops d).identity with
          | some id => [1, id.kind, byteOf id.points]
          | none => [0, 0, 0])
      ++ [flagByte (tget m.drops d).service, byteOf (tget m.drops d).total, byteOf ((tget m.drops d).total / 256),
          byteOf (m.cursor.val + 1)] := by
  unfold dropData
  dsimp only
  rw [dropByte_of_address address, linkWord_wordOf]
  cases (tget m.drops d).identity <;> rfl

/-- Settles O35: the drop address names a drop or not, and the takings have a branch for each. -/
theorem dropRequests : Obligations.DropRequests := by
  intro tag drop threshold interval s
  refine ⟨fun outside => ?_, fun d address => ?_⟩
  · have none := dropOf_eq_none outside
    exact ⟨fun turn => answers_of_effect rfl turn (by simp [ownerEffect, takeDropAttach, none]),
      fun turn => answers_of_effect rfl turn (by simp [ownerEffect, takeDropDetach, none]),
      fun turn => answers_of_effect rfl turn (by simp [ownerEffect, takeDropRead, none]),
      fun turn => answers_of_effect rfl turn (by simp [ownerEffect, takeDropClearService, none])⟩
  · have at_drop := (dropOf_eq_some drop d).mpr address
    refine ⟨fun turn => ⟨fun attached => ?_, fun off => ⟨fun outside => ?_, fun low high some_frames => ?_⟩⟩, fun turn => ?_,
      fun turn => ?_, fun turn => ?_⟩
    · exact answers_of_effect rfl turn (by simp [ownerEffect, takeDropAttach, at_drop, attached])
    · have notInRange : ¬ (1 ≤ threshold.toNat ∧ threshold.toNat ≤ 15 ∧ 1 ≤ interval.toNat) := by
        rintro ⟨low, high, some_frames⟩
        rcases outside with rfl | above | rfl
        · exact absurd low (by decide)
        · omega
        · exact absurd some_frames (by decide)
      exact answers_of_effect rfl turn (by simp [ownerEffect, takeDropAttach, at_drop, off, notInRange])
    · have inRange : 1 ≤ threshold.toNat ∧ threshold.toNat ≤ 15 ∧ 1 ≤ interval.toNat := ⟨low, high, some_frames⟩
      refine answers_of_effect rfl turn ?_
      simp only [ownerEffect, takeDropAttach, at_drop, off, ne_eq, not_true_eq_false, if_false, if_pos inRange]
      rfl
    · refine answers_of_effect rfl turn ?_
      simp only [ownerEffect, takeDropDetach, at_drop]
      cases (tget s.drm.drops d).state <;> rfl
    · refine answers_of_effect rfl turn ?_
      simp only [ownerEffect, takeDropRead, at_drop, dropData_eq address]
      cases (tget s.drm.drops d).state <;> cases (tget s.drm.drops d).identity <;> rfl
    · refine answers_of_effect rfl turn ?_
      simp only [ownerEffect, takeDropClearService, at_drop]
      rfl

/-! ### The requests of the result store (R114, R116) -/

theorem modeOf_eq_none {b : Byte} (above : 2 < b.toNat) : modeOf b = none := by
  have other : ∀ c : Byte, c.toNat ≤ 2 → b ≠ c := fun c low same => by
    rw [same] at above
    omega
  unfold modeOf
  rw [if_neg (other 0 (by decide)), if_neg (other 1 (by decide)), if_neg (other 2 (by decide))]

theorem modeOf_eq_some {b : Byte} (low : b.toNat ≤ 2) :
    modeOf b = some (if b = 0 then .off else if b = 1 then .block else .latest) := by
  unfold modeOf
  split
  · rfl
  · rename_i notZero
    split
    · rfl
    · rename_i notOne
      refine if_pos (BitVec.eq_of_toNat_eq ?_)
      have notZero' : b.toNat ≠ 0 := mt toNat_eq_zero.mp notZero
      have notOne' : b.toNat ≠ 1 := fun h => notOne (BitVec.eq_of_toNat_eq h)
      show b.toNat = 2
      omega

section
variable {tag set mode width : Byte} {s : State}

theorem takeSetConfig_of_outOfRange
    (outside : 15 < set.toNat ∨ 2 < mode.toNat ∨ width = 0 ∨ 8 < width.toNat) :
    takeSetConfig tag set mode width s = reply tag .outOfRange [] s := by
  unfold takeSetConfig
  split
  · rename_i at_set at_mode
    rw [if_neg]
    rintro ⟨low, high⟩
    rcases outside with above | above | rfl | above
    · simp [indexOf_eq_none (n := Config.setCount) above] at at_set
    · simp [modeOf_eq_none above] at at_mode
    · exact absurd low (by decide)
    · omega
  · rfl

theorem strands_iff (k : Fin Config.setCount) (w : Nat) (e : Entry) :
    strands k w e = true ↔
      ∃ b r, e.body = some b ∧ b.route = some r ∧ r.set = k ∧ b.trans.inCount < r.offset + w := by
  unfold strands
  cases e.body with
  | none => simp
  | some b => cases route : b.route <;> simp [route]

theorem any_strands_iff (m : Scm) (k : Fin Config.setCount) (w : Nat) :
    m.entries.toArray.toList.any (strands k w) = true ↔ ∃ i, strands k w (tget m.entries i) = true := by
  rw [List.any_eq_true]
  constructor
  · rintro ⟨e, mem, stranded⟩
    obtain ⟨i, inside, rfl⟩ := List.mem_iff_getElem.mp mem
    exact ⟨⟨i, by simpa using inside⟩, by simpa [tget] using stranded⟩
  · rintro ⟨i, stranded⟩
    exact ⟨_, by simp [tget], stranded⟩

/-- A SET-CONFIG in range, by the routes it would strand (R114). -/
theorem takeSetConfig_of_set {k : Fin Config.setCount} (hk : k.val = set.toNat) (inMode : mode.toNat ≤ 2)
    (low : 1 ≤ width.toNat) (high : width.toNat ≤ 8) :
    takeSetConfig tag set mode width s =
      if ∃ i, strands k width.toNat (tget s.scm.entries i) = true then reply tag .conflict [] s
      else
        reply tag .ok [byteOf (setSamples (tget s.rst.sets k)).length]
          (putSet k (emptySet (if mode = 0 then .off else if mode = 1 then .block else .latest) width.toNat) s) := by
  simp only [takeSetConfig, indexOf_eq_some hk, modeOf_eq_some inMode, low, high, and_self, if_true, any_strands_iff]

end

/-- A list by what each place of it holds. -/
theorem filterMap_range_eq {α : Type} {f : Nat → Option α} {l : List α} {n : Nat} (length : l.length = n)
    (each : ∀ k, k < n → f k = l[k]?) : (List.range n).filterMap f = l := by
  subst length
  induction l generalizing f with
  | nil => rfl
  | cons a rest ih =>
    have first : f 0 = some a := each 0 (Nat.zero_lt_succ _)
    have others : (List.range rest.length).filterMap (f ∘ Nat.succ) = rest :=
      ih fun k inside => each (k + 1) (Nat.succ_lt_succ inside)
    rw [List.length_cons, List.range_succ_eq_map, List.filterMap_cons, first, List.filterMap_map, others]

/-- The samples of a set, from its slots (R116). -/
theorem setSamples_eq {r : SetRec} {held : List Sample}
    (holds : match r.mode with
      | .off => held = []
      | .block => held.length = r.fill ∧ r.fill ≤ 3 ∧ ∀ j : Fin 4, j.val < r.fill → tget r.slots j = held[j.val]?
      | .latest => held.length = r.latest ∧ r.latest ≤ 4
          ∧ ∀ j : Fin 4, j.val < r.latest → tget r.slots (r.newest - j) = held[j.val]?) :
    setSamples r = held := by
  have index : ∀ k, k < 4 → (Fin.ofNat 4 k).val = k := fun k small => Nat.mod_eq_of_lt small
  unfold setSamples
  cases mode : r.mode with
  | off =>
    simp only [mode] at holds
    exact holds.symm
  | block =>
    simp only [mode] at holds
    obtain ⟨length, few, each⟩ := holds
    refine filterMap_range_eq length fun k small => ?_
    have same := index k (by omega)
    rw [each _ (same.symm ▸ small), same]
  | latest =>
    simp only [mode] at holds
    obtain ⟨length, few, each⟩ := holds
    refine filterMap_range_eq length fun k small => ?_
    have same := index k (by omega)
    rw [each _ (same.symm ▸ small), same]

theorem marksByte_eq (fault service : Bool) :
    marksByte fault service = (if fault then 1 else 0) + (if service then 2 else 0) := by
  cases fault <;> cases service <;> rfl

/-- Settles O36: SET-CONFIG by its fields and the routes it would strand; SET-READ by the samples the slots hold. -/
theorem resultSetRequests : Obligations.ResultSetRequests := by
  refine ⟨fun tag set mode width s turn => ⟨fun outside => ?_, fun k m hk hm inMode low high => ?_⟩,
    fun tag set s turn => ⟨fun above => ?_, fun k hk => ?_⟩⟩
  · exact answers_of_effect rfl turn (takeSetConfig_of_outOfRange outside)
  · have takes := takeSetConfig_of_set (tag := tag) (s := s) hk inMode low high
    subst hm
    refine ⟨fun ⟨i, stranded⟩ => ?_, fun notStranded => ?_⟩
    · exact answers_of_effect rfl turn (takes.trans (if_pos ⟨i, (strands_iff _ _ _).mpr stranded⟩))
    · exact answers_of_effect rfl turn
        (takes.trans (if_neg fun ⟨i, stranded⟩ => notStranded i ((strands_iff _ _ _).mp stranded)))
  · exact answers_of_effect rfl turn (by simp [ownerEffect, takeSetRead, indexOf_eq_none (n := Config.setCount) above])
  · intro r held holds
    refine answers_of_effect rfl turn ?_
    have samples : sampleBytes = fun x : Sample =>
        [byteOf x.entry.val, lowByte x.frame, highByte x.frame, (if x.fault then 1 else 0) + (if x.service then 2 else 0)]
        ++ x.values.flatMap fun w => [lowByte w, highByte w] := by
      funext x
      rw [sampleBytes, marksByte_eq]
      rfl
    simp only [ownerEffect, takeSetRead, indexOf_eq_some hk, setData, setSamples_eq (r := tget s.rst.sets k) holds, samples]
    rfl

end Sys2Proof.Machine

namespace Sys2Proof.Machine

/-! ### Masks (R135) -/

theorem maskOf_eq_none {b : Byte} (above : 1 < b.toNat) : maskOf b = none := by
  have other : ∀ c : Byte, c.toNat ≤ 1 → b ≠ c := fun c low same => by
    rw [same] at above
    omega
  unfold maskOf
  rw [if_neg (other 0 (by decide)), if_neg (other 1 (by decide))]

theorem eq_zero_or_one {b : Byte} (low : b.toNat ≤ 1) : b = 0 ∨ b = 1 := by
  rcases Nat.le_one_iff_eq_zero_or_eq_one.mp low with zero | one
  · exact .inl (toNat_eq_zero.mp zero)
  · exact .inr (BitVec.eq_of_toNat_eq one)

theorem maskOf_eq_some {b : Byte} (low : b.toNat ≤ 1) : maskOf b = some (if b = 1 then .unmasked else .masked) := by
  rcases eq_zero_or_one low with rfl | rfl <;> rfl

theorem unmasks_eq (old : Mask) {b : Byte} (low : b.toNat ≤ 1) :
    unmasks old (if b = 1 then .unmasked else .masked) = (old == .masked && b == 1) := by
  rcases eq_zero_or_one low with rfl | rfl <;> rfl

/-! ### The admission of reports (R124 to R133) -/

section
variable {s : State}

theorem admits_iff (s : State) :
    s.admits = true ↔ s.link.session.state ≠ .closed ∧ s.rep.queue.length + ticketCount s.fen < 32 := by
  simp [State.admits, admits, Session.isOpen]

theorem admits_eq_false
    (refused : ¬ (s.link.session.state ≠ .closed ∧ s.rep.queue.length + ticketCount s.fen < 32)) : s.admits = false :=
  Bool.eq_false_iff.mpr (mt (admits_iff s).mp refused)

/-- The paths of an ENGINE-STATE (R132). -/
theorem repEngine_rules (ok : Bool) (c : EngineChange) (p : Rep) :
    (p.engineLatch = none → repEngine ok c p =
      if ok then enqueue (.engineState c 1) p else { p with engineLatch := some { change := c, count := 1 } })
    ∧ ∀ l, p.engineLatch = some l →
      repEngine ok c p = { p with engineLatch := some { change := c, count := min (l.count + 1) 255 } } :=
  ⟨fun clear => by simp only [repEngine, clear], fun l set => by simp only [repEngine, set]; rfl⟩

/-- The paths of a DROP-STATE (R128, R129). -/
theorem repDrop_rules (ok : Bool) (d : Fin Config.dropCount) (x : DropChange) (p : Rep) :
    (tget p.dropLatches d = none → repDrop ok d x p =
      if p.maskDrop = .unmasked ∧ ok then enqueue (.dropState d x 1) p
      else { p with dropLatches := tput p.dropLatches d (some { change := x, count := 1 }) })
    ∧ ∀ l, tget p.dropLatches d = some l →
      repDrop ok d x p =
        { p with dropLatches := tput p.dropLatches d (some { change := x, count := min (l.count + 1) 255 }) } :=
  ⟨fun clear => by simp only [repDrop, clear], fun l set => by simp only [repDrop, set]; rfl⟩

/-- The paths of a FRAME-EVENT (R128, R131). -/
theorem repFrame_rules (ok : Bool) (f : FrameSummary) (p : Rep) :
    (p.frameLatch = none → repFrame ok f p =
      if p.maskFrame = .unmasked ∧ ok then enqueue (.frameEvent f) p else { p with frameLatch := some f })
    ∧ ∀ l, p.frameLatch = some l →
      repFrame ok f p = { p with
        frameLatch := some
          { slot := f.slot, frame := f.frame, skipped := min (l.skipped + f.skipped) 65535,
            jams := min (l.jams + f.jams) 255, frames := min (l.frames + f.frames) 65535 } } :=
  ⟨fun clear => by simp only [repFrame, clear], fun l set => by simp only [repFrame, set]; rfl⟩

/-- A maskable event that is MASKED or not admitted is latched (R128). -/
theorem not_unmasked_and {mask : Mask} {ok : Bool} (h : mask = .masked ∨ ok = false) : ¬ (mask = .unmasked ∧ ok = true) := by
  rintro ⟨unmasked, admitted⟩
  rcases h with masked | refused
  · exact absurd (unmasked.symm.trans masked) (by decide)
  · exact Bool.noConfusion (admitted.symm.trans refused)

end

/-- The offering of one latch after another (R133). -/
theorem offering_rules (isOpen : Bool) (t : Nat) (id : LatchId) (ids : List LatchId) (p : Rep) :
    offering isOpen t [] p = (p, 0)
    ∧ (latchReport p id = none → offering isOpen t (id :: ids) p = offering isOpen t ids p)
    ∧ (∀ r, latchReport p id = some r → isOpen = true → p.queue.length + t < 32 →
        offering isOpen t (id :: ids) p =
          ((offering isOpen t ids (enqueue r (clearLatch p id))).1,
            (offering isOpen t ids (enqueue r (clearLatch p id))).2 + 1))
    ∧ ((latchReport p id).isSome = true → isOpen = false ∨ 32 ≤ p.queue.length + t →
        offering isOpen t (id :: ids) p = (p, 0)) := by
  refine ⟨rfl, fun clear => ?_, fun r set isOpen room => ?_, fun set refused => ?_⟩
  · simp only [offering, clear]
  · simp only [offering, set]
    exact if_pos (by simp [admits, isOpen, room])
  · obtain ⟨r, set⟩ := Option.isSome_iff_exists.mp set
    simp only [offering, set]
    refine if_neg ?_
    rcases refused with closed | full
    · simp [admits, closed]
    · simp [admits, Nat.not_lt.mpr full]

theorem eventMask_offers (tag dm sm fm : Byte) (s : State) (turn : ItsTurn .eventMask tag [dm, sm, fm] s)
    (hd : dm.toNat ≤ 1) (hs : sm.toNat ≤ 1) (hf : fm.toNat ≤ 1) :
    let mask := fun b : Byte => if b = 1 then Mask.unmasked else .masked
    let out := offering (s.link.session.state != .closed) (ticketCount s.fen)
      (latchOrder false (s.rep.maskDrop == .masked && dm == 1) (s.rep.maskService == .masked && sm == 1)
        (s.rep.maskFrame == .masked && fm == 1))
      { s.rep with maskDrop := mask dm, maskService := mask sm, maskFrame := mask fm }
    Answers (.eventMask tag dm sm fm) tag .ok [dm, sm, fm, byteOf out.2] s (s.setRep out.1) := by
  intro mask out
  refine answers_of_effect rfl turn ?_
  simp only [ownerEffect, takeEventMask, maskOf_eq_some hd, maskOf_eq_some hs, maskOf_eq_some hf, unmasks_eq _ hd,
    unmasks_eq _ hs, unmasks_eq _ hf]
  rfl

/-- Settles O37: the mask codes; the paths of each event; the rules of an offering. -/
theorem eventMaskSetsTheMasks : Obligations.EventMaskSetsTheMasks := by
  refine ⟨fun tag dm sm fm s turn => ⟨fun outside => ?_, eventMask_offers tag dm sm fm s turn⟩, fun s d c x f r => ?_,
    fun isOpen t id ids p => ?_, fun e d s f => rfl⟩
  · refine answers_of_effect rfl turn ?_
    simp only [ownerEffect, takeEventMask]
    split
    · rename_i at_dm at_sm at_fm
      rcases outside with above | above | above
      · simp [maskOf_eq_none above] at at_dm
      · simp [maskOf_eq_none above] at at_sm
      · simp [maskOf_eq_none above] at at_fm
    · rfl
  · have engine := repEngine_rules s.admits c s.rep
    have drop := repDrop_rules s.admits d x s.rep
    have frame := repFrame_rules s.admits f s.rep
    refine ⟨rfl, fun clear ok => ?_, fun clear refused => ?_, fun l set => ?_, fun clear unmasked ok => ?_,
      fun clear h => ?_, fun l set => ?_, fun clear unmasked ok => ?_, fun clear h => ?_, fun set => ?_,
      fun clear unmasked ok => ?_, fun clear h => ?_, fun l set => ?_⟩
    · exact congrArg s.setRep ((engine.1 clear).trans (if_pos ((admits_iff s).mpr ok)))
    · exact congrArg s.setRep ((engine.1 clear).trans (if_neg (by simp [admits_eq_false refused])))
    · exact congrArg s.setRep (engine.2 l set)
    · exact congrArg s.setRep ((drop.1 clear).trans (if_pos ⟨unmasked, (admits_iff s).mpr ok⟩))
    · exact congrArg s.setRep ((drop.1 clear).trans (if_neg (not_unmasked_and (h.imp id admits_eq_false))))
    · exact congrArg s.setRep (drop.2 l set)
    · refine congrArg s.setRep ?_
      rw [repService, if_neg (by simp [clear]), if_pos ⟨unmasked, (admits_iff s).mpr ok⟩]
      rfl
    · refine congrArg s.setRep ?_
      rw [repService, if_neg (by simp [clear]), if_neg (not_unmasked_and (h.imp id admits_eq_false))]
    · exact (congrArg s.setRep (if_pos set)).trans (setRep_self s)
    · exact congrArg s.setRep ((frame.1 clear).trans (if_pos ⟨unmasked, (admits_iff s).mpr ok⟩))
    · exact congrArg s.setRep ((frame.1 clear).trans (if_neg (not_unmasked_and (h.imp id admits_eq_false))))
    · exact congrArg s.setRep (frame.2 l set)
  · cases id with
    | engine => exact offering_rules isOpen t .engine ids p
    | drop d => exact offering_rules isOpen t (.drop d) ids p
    | service d => exact offering_rules isOpen t (.service d) ids p
    | frame => exact offering_rules isOpen t .frame ids p

end Sys2Proof.Machine

namespace Sys2Proof.Machine

/-! ### OPEN and CLOSE (R171, R172) -/

theorem isOpen_eq_false {x : Session} (closed : x.state = .closed) : x.isOpen = false := by simp [Session.isOpen, closed]

theorem isOpen_eq_true {x : Session} (notClosed : x.state ≠ .closed) : x.isOpen = true := by
  simpa [Session.isOpen] using notClosed

theorem openInRange_iff (w r t : Byte) :
    openInRange w r t = true ↔ 1 ≤ w.toNat ∧ w.toNat ≤ 8 ∧ r.toNat ≤ 25 ∧ 1 ≤ t.toNat ∧ t.toNat ≤ 50 := by
  simp [openInRange, and_assoc]

theorem actionOf_eq_some {a : Byte} (flag : a = 0 ∨ a = 1) :
    actionOf a = some (if a = 1 then .halt else .continue_) ∧ (if a = 1 then LinkLoss.halt else .continue_).code = a := by
  rcases flag with rfl | rfl <;> exact ⟨rfl, rfl⟩

theorem actionOf_eq_none {a : Byte} (other : ¬ (a = 0 ∨ a = 1)) : actionOf a = none := by
  obtain ⟨notZero, notOne⟩ := not_or.mp other
  unfold actionOf
  rw [if_neg notZero, if_neg notOne]

/-- The engine latch is offered to an empty queue (R139). -/
theorem offering_engine {t : Nat} {p : Rep} (empty : p.queue = []) (none : t = 0) :
    (offering true t [.engine] p).1 =
      match p.engineLatch with
      | .none => p
      | some l => { p with
          queue := [{ seq := p.nextSeq, report := .engineState l.change l.count }], nextSeq := p.nextSeq + 1,
          engineLatch := .none } := by
  obtain ⟨-, clear, set, -⟩ := offering_rules true t .engine [] p
  cases latch : p.engineLatch with
  | none => rw [clear (by simp [latchReport, latch])]; rfl
  | some l =>
    rw [set (.engineState l.change l.count) (by simp [latchReport, latch]) rfl (by simp [empty, none])]
    simp only [offering, enqueue, clearLatch, empty, List.nil_append]

/-- Settles O11: OPEN by the session and the ranges, its one latch offered to the empty queue; CLOSE makes the session
closing. -/
theorem openAndClose : Obligations.OpenAndClose := by
  intro tag w r t a s
  refine ⟨fun turn => ⟨fun isOpen => ?_, fun closed outside => ?_, fun closed inside empty none => ?_⟩, fun turn isOpen => ?_⟩
  · exact answers_of_effect rfl turn (if_pos (isOpen_eq_true isOpen))
  · refine answers_of_effect rfl turn ((if_neg (by simp [isOpen_eq_false closed])).trans ?_)
    split
    · rename_i range action
      refine absurd ?_ outside
      obtain ⟨h1, h2, h3, h4, h5⟩ := (openInRange_iff _ _ _).mp range
      refine ⟨h1, h2, h3, h4, h5, Classical.not_not.mp fun other => ?_⟩
      rw [actionOf_eq_none other] at action
      cases action
    · rfl
  · obtain ⟨h1, h2, h3, h4, h5, flag⟩ := inside
    obtain ⟨action, code⟩ := actionOf_eq_some flag
    have range := (openInRange_iff w r t).mpr ⟨h1, h2, h3, h4, h5⟩
    intro tr session
    have offers := offering_engine (p := { s.rep with nextSeq := 0 }) empty none
    refine answers_of_effect rfl turn ((if_neg (by simp [isOpen_eq_false closed])).trans ?_)
    simp only [range, action]
    have result : (offerLatches (latchOrder true false false false)
        ((s.setLink (linkOpen w r t (if a = 1 then .halt else .continue_) s.link)).setRep { s.rep with nextSeq := 0 })).1 =
      ((s.setLink { s.link with
          session := session, badFrames := 0,
          send := { unacked := 0, position := 0, resends := 0, timer := .none, path := .sending } }).setRep
        (match s.rep.engineLatch with
         | .none => { s.rep with nextSeq := 0 }
         | some l => { s.rep with
             queue := [{ seq := 0, report := .engineState l.change l.count }], nextSeq := 1, engineLatch := .none })) := by
      refine (congrArg (State.setRep _) offers).trans ?_
      cases s.rep.engineLatch <;> rfl
    rw [result]
    refine congrArg (fun d => reply tag .ok d _) ?_
    simp only [openData, setRep_link, setLink_link, setRep_fen, setLink_fen, session, byteOf_toNat, code]
    rfl
  · exact answers_of_effect rfl turn (by
      simp only [ownerEffect, takeClose, isOpen_eq_true isOpen, if_true])

/-! ### STATUS (R175, R136) -/

/-- The drop of a bit of a summary byte. -/
def dropAt (g : Fin 3) (k : Fin 8) : Fin Config.dropCount := ⟨8 * g.val + k.val, by
  simp only [Config.dropCount]
  omega⟩

theorem latchByte_eq (set : Fin Config.dropCount → Bool) (g : Fin 3) :
    latchByte set g.val = byteOf ((List.finRange 8).foldl (fun n k => if set (dropAt g k) then n + 2 ^ k.val else n) 0) := by
  unfold latchByte
  rw [List.foldl_filter]
  match g with
  | 0 | 1 | 2 => rfl

/-- The bits of a byte made of eight. -/
theorem byteOf_bits (bit : Fin 8 → Bool) (k : Fin 8) :
    (byteOf ((List.finRange 8).foldl (fun n k => if bit k then n + 2 ^ k.val else n) 0)).getLsbD k.val = bit k := by
  have bits : ∀ b0 b1 b2 b3 b4 b5 b6 b7 : Bool, ∀ k : Fin 8,
      (byteOf ((List.finRange 8).foldl
        (fun n k => if [b0, b1, b2, b3, b4, b5, b6, b7][k.val]! then n + 2 ^ k.val else n) 0)).getLsbD k.val =
      [b0, b1, b2, b3, b4, b5, b6, b7][k.val]! := by decide
  have same : ∀ k : Fin 8, [bit 0, bit 1, bit 2, bit 3, bit 4, bit 5, bit 6, bit 7][k.val]! = bit k := by
    intro k
    match k with
    | 0 | 1 | 2 | 3 | 4 | 5 | 6 | 7 => rfl
  have := bits (bit 0) (bit 1) (bit 2) (bit 3) (bit 4) (bit 5) (bit 6) (bit 7) k
  simpa only [same] using this

/-- The latch of a drop in a summary (10.4). -/
theorem latchBytes_getLsbD (set : Fin Config.dropCount → Bool) (d : Fin Config.dropCount) :
    ((latchBytes set).getD (d.val / 8) 0).getLsbD (d.val % 8) = set d := by
  have group : d.val / 8 < 3 := by
    have := d.isLt
    simp only [Config.dropCount] at this
    omega
  have at_group : ∀ g : Fin 3, (latchBytes set).getD g.val 0 = latchByte set g.val := fun g => match g with
    | 0 | 1 | 2 => rfl
  have same : dropAt ⟨d.val / 8, group⟩ ⟨d.val % 8, Nat.mod_lt _ (by decide)⟩ = d :=
    Fin.ext (Nat.div_add_mod d.val 8)
  rw [at_group ⟨d.val / 8, group⟩, latchByte_eq]
  exact (byteOf_bits _ ⟨d.val % 8, Nat.mod_lt _ (by decide)⟩).trans (congrArg set same)

/-- The two latch summaries of a STATUS reply, byte by byte. -/
theorem statusData_latches (s : State) (d : Fin Config.dropCount) :
    (statusData s).getD (22 + d.val / 8) 0 =
        (latchBytes fun d => (tget s.rep.dropLatches d).isSome).getD (d.val / 8) 0
      ∧ (statusData s).getD (25 + d.val / 8) 0 = (latchBytes fun d => tget s.rep.serviceLatches d).getD (d.val / 8) 0 := by
  have bytes : ∀ g : Fin 3,
      (statusData s).getD (22 + g.val) 0 = (latchBytes fun d => (tget s.rep.dropLatches d).isSome).getD g.val 0
        ∧ (statusData s).getD (25 + g.val) 0 = (latchBytes fun d => tget s.rep.serviceLatches d).getD g.val 0 :=
    fun g => match g with
    | 0 | 1 | 2 => ⟨rfl, rfl⟩
  have group : d.val / 8 < 3 := by
    have := d.isLt
    simp only [Config.dropCount] at this
    omega
  exact bytes ⟨d.val / 8, group⟩

/-- Settles O13: the fields in the order of 10.4, the two latch summaries bit by bit. -/
theorem statusReturnsAView : Obligations.StatusReturnsAView := by
  intro tag s turn
  refine ⟨statusData s, answers_of_effect rfl turn rfl, rfl, ?_, fun d => ?_, fun d => ?_, rfl⟩
  · simp only [statusData, oldestSeq, linkWord_wordOf]
    cases s.link.session.state <;> cases s.rep.queue <;> rfl
  · rw [(statusData_latches s d).1]
    exact latchBytes_getLsbD (fun d => (tget s.rep.dropLatches d).isSome) d
  · rw [(statusData_latches s d).2]
    exact latchBytes_getLsbD (fun d => tget s.rep.serviceLatches d) d

/-! ### ACK-REPORTS (R166, R167) -/

/-- A report frame on the line that counts no more (log 10). -/
theorem ltxCounts_eq (still : Bool) (x : Ltx) :
    ltxCounts still x = if still then x else match x with | .report q _ => .report q false | y => y := by
  cases still <;> cases x <;> simp [ltxCounts]

/-- LNK after `k` reports are acknowledged (R166). -/
theorem linkAck_eq (k : Nat) (l : Link) :
    linkAck k l = { l with
      send := { unacked := l.send.unacked - k,
                position := if l.send.path = .stalled then 0 else l.send.position - k,
                resends := 0,
                timer := if k < l.send.unacked then some (10 * l.session.resendTime) else none,
                path := .sending },
      ltx := if l.send.path = .stalled ∨ l.send.position < k then
          match l.ltx with | .report q _ => .report q false | y => y
        else l.ltx } := by
  have timer : resendTimer (l.send.unacked - k) l = if k < l.send.unacked then some (10 * l.session.resendTime) else none := by
    simp only [resendTimer, resendLoad, Nat.sub_pos_iff_lt]
  have ltx : ltxCounts (!(l.send.path == .stalled) && decide (k ≤ l.send.position)) l.ltx =
      if l.send.path = .stalled ∨ l.send.position < k then match l.ltx with | .report q _ => .report q false | y => y
      else l.ltx := by
    rw [ltxCounts_eq]
    by_cases stalled : l.send.path = .stalled
    · simp [stalled]
    · by_cases behind : k ≤ l.send.position
      · simp [stalled, behind, Nat.not_lt.mpr behind]
      · simp [stalled, behind, Nat.lt_of_not_le behind]
  unfold linkAck
  dsimp only
  rw [timer, ltx]
  simp only [beq_iff_eq]

theorem ackReports_removes {tag seq : Byte} {s : State} {k : Nat} (turn : ItsTurn .ackReports tag [seq] s)
    (at_k : (seq - oldestSeq s.rep).toNat + 1 = k) (sent : k ≤ s.link.send.unacked) :
    let t := (offerLatches (ackOffer s.rep)
      ((s.setLink (linkAck k s.link)).setRep { s.rep with queue := s.rep.queue.drop k })).1
    Answers (.ackReports tag seq) tag .ok [byteOf k, oldestSeq t.rep, 0] s t := by
  intro t
  subst at_k
  exact answers_of_effect rfl turn (if_pos sent)

/-- Settles O14: the sequence lies in the sent range, just before it, or elsewhere. -/
theorem ackReportsRemovesOrResends : Obligations.AckReportsRemovesOrResends := by
  intro tag seq s turn
  refine ⟨fun k at_k sent => ⟨_, ackReports_removes turn at_k sent, rfl, ?_⟩, fun notSent last => ?_, fun notSent other => ?_⟩
  · rw [linkAck_eq]
    rfl
  · refine answers_of_effect rfl turn ((if_neg (Nat.not_lt.mpr notSent)).trans ((if_pos last).trans ?_))
    have ltx : ltxCounts false s.link.ltx = match s.link.ltx with | .report q _ => .report q false | y => y := by
      cases s.link.ltx <;> simp [ltxCounts]
    simp only [linkRepeat, ltx, resendTimer, resendLoad]
    rfl
  · exact answers_of_effect rfl turn ((if_neg (Nat.not_lt.mpr notSent)).trans (if_neg other))

end Sys2Proof.Machine

namespace Sys2Proof.Machine

/-! ### RESET ENGINE (R47, R104, R150) -/

theorem isEngineDeferred_eq : isEngineDeferred = fun r => r == .halt || r == .quiet || r == .wake := by
  funext r
  cases r <;> rfl

/-- REP with the TICKET-DONE of some tickets at its tail (R124). -/
def enqueueTickets (rs : List TicketDone) (p : Rep) : Rep := rs.foldl (fun p r => enqueue (.ticketDone r) p) p

/-- Only the queue and the next sequence number change. -/
theorem enqueueTickets_spec (rs : List TicketDone) (p : Rep) :
    (enqueueTickets rs p).queue.map Queued.report = p.queue.map Queued.report ++ rs.map .ticketDone
      ∧ (enqueueTickets rs p).maskDrop = p.maskDrop ∧ (enqueueTickets rs p).maskService = p.maskService
      ∧ (enqueueTickets rs p).maskFrame = p.maskFrame ∧ (enqueueTickets rs p).dropLatches = p.dropLatches
      ∧ (enqueueTickets rs p).serviceLatches = p.serviceLatches ∧ (enqueueTickets rs p).frameLatch = p.frameLatch
      ∧ (enqueueTickets rs p).engineLatch = p.engineLatch := by
  unfold enqueueTickets
  induction rs generalizing p with
  | nil => simp
  | cons r rest ih => simpa [enqueue] using ih (enqueue (.ticketDone r) p)

theorem enqueueTickets_append (xs ys : List TicketDone) (p : Rep) :
    enqueueTickets (xs ++ ys) p = enqueueTickets ys (enqueueTickets xs p) := List.foldl_append

/-- The states an aborting leaves: REP has the tickets, FEN neither item nor queue. -/
theorem abortInFlight_eq (s : State) :
    abortInFlight s = (s.setFen { s.fen with item := none }).setRep
      (enqueueTickets (abortedTickets { s.fen with queue := [] }) s.rep) := by
  cases item : s.fen.item with
  | none =>
    simp only [abortInFlight, abortedTickets, item]
    rfl
  | some it =>
    obtain ⟨source, retries, attempts, lastError⟩ := it
    cases source with
    | adHoc ticket mark =>
      cases mark <;> simp only [abortInFlight, abortedTickets, item] <;> rfl
    | periodic | probe =>
      simp only [abortInFlight, abortedTickets, item]
      rfl

theorem abortQueue_eq (q : List AdHoc) (s : State) (queue : s.fen.queue = q) :
    abortQueue q s = (s.setFen { s.fen with queue := [] }).setRep (enqueueTickets (q.map fun h =>
      { ticket := h.ticket, outcome := .aborted, lastError := none, attempts := 0, frame := s.fen.frame, flags := none,
        values := [] }) s.rep) := by
  induction q generalizing s with
  | nil =>
    obtain ⟨link, scm, fen, btx, drm, rst, rep, pending⟩ := s
    cases fen
    cases queue
    rfl
  | cons h rest ih => exact ih _ rfl

/-- The TICKET-DONE ABORTED of the in-flight item come first, then those of the queue (R104). -/
theorem abort_eq (s : State) :
    abortQueue s.fen.queue (abortInFlight s) = (s.setFen { s.fen with item := none, queue := [] }).setRep
      (enqueueTickets (abortedTickets s.fen) s.rep) := by
  have split : abortedTickets s.fen = abortedTickets { s.fen with queue := [] } ++ s.fen.queue.map fun h =>
      { ticket := h.ticket, outcome := .aborted, lastError := none, attempts := 0, frame := s.fen.frame, flags := none,
        values := [] } := by simp [abortedTickets]
  rw [abortInFlight_eq]
  refine (abortQueue_eq _ _ ?_).trans ?_
  · rfl
  · rw [split, enqueueTickets_append]
    rfl


/-- The state in which the reset has aborted the tickets and answered the requests of the engine (R47). -/
def resetAborted (s : State) : State :=
  answerDeferred isEngineDeferred .aborted [] ((s.setFen { s.fen with item := none, queue := [] }).setRep
    (enqueueTickets (abortedTickets s.fen) s.rep))

/-- The change a RESET ENGINE reports (R47). -/
def resetChange (f : Fen) : EngineChange := { new := .stopped, left := f.engine, cause := .reset, frame := f.frame }

theorem completeReset_of_stopped {s : State} (stopped : s.fen.engine = .stopped) :
    completeReset s = (resetAborted s).setFen (fenResetEngine s.fen) := by
  unfold completeReset
  rw [abort_eq]
  exact congrArg (fun u : State => u.setFen (fenResetEngine u.fen)) (if_pos stopped)

theorem completeReset_of_ne_stopped {s : State} (other : s.fen.engine ≠ .stopped) :
    completeReset s =
      (offerEngine (resetChange s.fen)
        ((resetAborted s).setFen { s.fen with item := none, queue := [], engine := .stopped })).setFen
        (fenResetEngine { s.fen with engine := .stopped }) := by
  unfold completeReset
  rw [abort_eq]
  exact congrArg (fun u : State => u.setFen (fenResetEngine u.fen)) (if_neg other)

theorem completeReset_fen (s : State) :
    (completeReset s).fen = { Fen.initial with config := s.fen.config, ticket := s.fen.ticket } := by
  by_cases stopped : s.fen.engine = .stopped
  · rw [completeReset_of_stopped stopped]
    show fenResetEngine s.fen = _
    rw [fenResetEngine, stopped]
    rfl
  · rw [completeReset_of_ne_stopped stopped]
    rfl

theorem completeReset_link (s : State) :
    (completeReset s).link = linkAnswer (fun r => r == .halt || r == .quiet || r == .wake) .aborted [] s.link := by
  rw [← isEngineDeferred_eq]
  by_cases stopped : s.fen.engine = .stopped
  · rw [completeReset_of_stopped stopped]; rfl
  · rw [completeReset_of_ne_stopped stopped]; rfl

/-- What the completion of a reset leaves alone. -/
theorem completeReset_rest (s : State) :
    (completeReset s).scm = s.scm ∧ (completeReset s).btx = s.btx ∧ (completeReset s).drm = s.drm
      ∧ (completeReset s).rst = s.rst := by
  by_cases stopped : s.fen.engine = .stopped
  · rw [completeReset_of_stopped stopped]; exact ⟨rfl, rfl, rfl, rfl⟩
  · rw [completeReset_of_ne_stopped stopped]; exact ⟨rfl, rfl, rfl, rfl⟩

/-- The reports of a completed reset, in front of those the queue held: the tickets, then the ENGINE-STATE of a change of
the state, on the queue or in its latch (R104, R128). -/
def ResetReports (f : Fen) (p q : Rep) : Prop :=
  q.maskDrop = p.maskDrop ∧ q.maskService = p.maskService ∧ q.maskFrame = p.maskFrame
    ∧ q.dropLatches = p.dropLatches ∧ q.serviceLatches = p.serviceLatches ∧ q.frameLatch = p.frameLatch
    ∧ ∃ tail : List Report,
        q.queue.map Queued.report = p.queue.map Queued.report ++ (abortedTickets f).map .ticketDone ++ tail
        ∧ (f.engine = .stopped → tail = [] ∧ q.engineLatch = p.engineLatch)
        ∧ (f.engine ≠ .stopped →
            (tail = [.engineState (resetChange f) 1] ∧ p.engineLatch = none ∧ q.engineLatch = none)
            ∨ (tail = [] ∧ q.engineLatch.map EngineLatch.change = some (resetChange f)))

theorem resetReports_of_stopped {f : Fen} (p : Rep) (stopped : f.engine = .stopped) :
    ResetReports f p (enqueueTickets (abortedTickets f) p) := by
  obtain ⟨queue, drop, service, frame, drops, services, latch, engine⟩ := enqueueTickets_spec (abortedTickets f) p
  exact ⟨drop, service, frame, drops, services, latch, [], by rw [queue, List.append_nil], fun _ => ⟨rfl, engine⟩,
    fun other => absurd stopped other⟩

theorem resetReports_of_ne_stopped {f : Fen} (p : Rep) (ok : Bool) (other : f.engine ≠ .stopped) :
    ResetReports f p (repEngine ok (resetChange f) (enqueueTickets (abortedTickets f) p)) := by
  obtain ⟨queue, drop, service, frame, drops, services, latch, engine⟩ := enqueueTickets_spec (abortedTickets f) p
  obtain ⟨clear, set⟩ := repEngine_rules ok (resetChange f) (enqueueTickets (abortedTickets f) p)
  cases held : p.engineLatch with
  | none =>
    rw [clear (engine.trans held)]
    cases ok with
    | true =>
      refine ⟨drop, service, frame, drops, services, latch, [.engineState (resetChange f) 1], ?_, (absurd · other),
        fun _ => .inl ⟨rfl, held, engine.trans held⟩⟩
      rw [← queue]
      simp [enqueue]
    | false =>
      exact ⟨drop, service, frame, drops, services, latch, [], queue.trans (List.append_nil _).symm, (absurd · other),
        fun _ => .inr ⟨rfl, rfl⟩⟩
  | some l =>
    rw [set l (engine.trans held)]
    exact ⟨drop, service, frame, drops, services, latch, [], queue.trans (List.append_nil _).symm, (absurd · other),
      fun _ => .inr ⟨rfl, rfl⟩⟩

theorem completeReset_reports (s : State) : ResetReports s.fen s.rep (completeReset s).rep := by
  by_cases stopped : s.fen.engine = .stopped
  · rw [completeReset_of_stopped stopped]
    exact resetReports_of_stopped s.rep stopped
  · rw [completeReset_of_ne_stopped stopped]
    exact resetReports_of_ne_stopped s.rep _ stopped

end Sys2Proof.Machine

namespace Sys2Proof.Machine

/-! ### BTX, DRM and RST at a RESET ENGINE (R71, R91, R119) -/

/-- A broadcast on the line goes on (R71). -/
theorem btxReset_of_broadcast (rate : BusRate) (line : List Level) {x : Btx} {b : Handed}
    (broadcast : x.state = .broadcast b ∨ x.state = .gap (.broadcast b)) :
    btxAbandon (btxUntilReset rate line x) = { x with capture := none } := by
  rcases broadcast with h | h <;> simp only [btxUntilReset, btxAbandon, h]

/-- Anything else is abandoned, and the line up to the reset stays in the jam record (R68, R70). -/
theorem btxReset_of_attempt (rate : BusRate) (line : List Level) {x : Btx}
    (noBroadcast : ∀ b, x.state ≠ .broadcast b ∧ x.state ≠ .gap (.broadcast b)) :
    let t := btxAbandon (btxUntilReset rate line x)
    let seen := x.heard ++ line
    t.state = .idle ∧ t.dbde = false ∧ t.capture = none ∧ t.rx = { startAt := none, bytes := [], endAt := none }
      ∧ t.waiting = x.waiting
      ∧ t.jamRecord = (if x.state = .request then x.jamRecord <<< (line.length * rate.grains)
          else (btxHear rate seen.length seen x).jamRecord) := by
  intro t seen
  have cases : t = { (if x.state = .request then btxDrive rate line.length x else btxHear rate seen.length seen x) with
      state := .idle, dbde := false, capture := none, rx := .empty } := by
    cases state : x.state with
    | broadcast b => exact absurd state (noBroadcast b).1
    | gap k =>
      cases k with
      | broadcast b => exact absurd state (noBroadcast b).2
      | attempt n => simp [t, seen, btxUntilReset, btxAbandon, state, btxHear, Btx.lineWith]
    | _ => simp [t, seen, btxUntilReset, btxAbandon, state, btxHear, btxDrive, Btx.lineWith]
  rw [cases]
  by_cases request : x.state = .request
  · rw [if_pos request, if_pos request]
    exact ⟨rfl, rfl, rfl, rfl, rfl, rfl⟩
  · rw [if_neg request, if_neg request]
    exact ⟨rfl, rfl, rfl, rfl, rfl, rfl⟩

theorem drmResetEngine_drops (m : Drm) (d : Fin Config.dropCount) :
    tget (drmResetEngine m).drops d =
      if (tget m.drops d).state = .off then tget m.drops d
      else { tget m.drops d with state := .seeking, failures := 0, due := 0, identity := none, service := false } :=
  tget_tmap _ _ _

theorem rstResetEngine_sets (r : Rst) (k : Fin Config.setCount) :
    tget (rstResetEngine r).sets k =
      { mode := (tget r.sets k).mode, width := (tget r.sets k).width, slots := Vector.replicate _ none, fill := 0,
        newest := 0, latest := 0, block := 0, lost := 0 } :=
  tget_tmap _ _ _

/-- RESET ENGINE outside QUIET and WAKING is performed at once (R47). -/
theorem resetEngineNow_of_other (tag : Byte) (line : List Level) {s : State} (notQuiet : s.fen.engine ≠ .quiet)
    (notWaking : s.fen.engine ≠ .waking) :
    resetEngineNow tag line s = reply tag .ok (resetData 0 0)
      (completeReset (((s.setDrm (drmResetEngine s.drm)).setRst (rstResetEngine s.rst)).setBtx
        (btxAbandon (btxUntilReset s.busRate line s.btx)))) :=
  if_neg (not_or.mpr ⟨notQuiet, notWaking⟩)

theorem ownerEffect_resetEngine (tag : Byte) (line : List Level) (s : State) :
    ownerEffect (.resetEngine tag 0 line) s = resetEngineNow tag line s := rfl

/-- Settles O15: the completion of the reset on the state with BTX, DRM and RST reset. -/
theorem resetEngineStopsTheEngine : Obligations.ResetEngineStopsTheEngine := by
  refine ⟨fun tag scope line s turn => ⟨fun notEngine notAll => ?_, fun all => ?_⟩,
    fun tag line s turn notQuiet notWaking => ?_⟩
  · exact answers_of_effect rfl turn ((if_neg notAll).trans (if_neg notEngine))
  · rw [exec_of_itsTurn rfl turn]
    exact congrArg _ (if_pos all)
  · let u := ((s.setDrm (drmResetEngine s.drm)).setRst (rstResetEngine s.rst)).setBtx
      (btxAbandon (btxUntilReset s.busRate line s.btx))
    obtain ⟨scm, btx, drm, rst⟩ := completeReset_rest u
    obtain ⟨drop, service, frame, drops, services, latch, tail, queue, stopped, other⟩ := completeReset_reports u
    refine ⟨completeReset u, answers_of_effect rfl turn ?_, ?_⟩
    · exact (ownerEffect_resetEngine tag line s).trans (resetEngineNow_of_other tag line notQuiet notWaking)
    · rw [completeReset_fen, scm, btx, drm, rst, completeReset_link]
      refine ⟨rfl, rfl, rfl, rfl, rfl, rfl, rfl, rfl, rfl, rfl, rfl, rfl, fun b => btxReset_of_broadcast _ line,
        fun attempt => btxReset_of_attempt _ line attempt, drmResetEngine_drops s.drm, rfl, rfl,
        rstResetEngine_sets s.rst, rfl, drop, service, frame, drops, services, latch, tail, queue, stopped, other⟩

/-! ### RESET ENGINE with a RESUME first (R150) -/

theorem exec_broadcastGapEnd_reset {b : Handed} {line : List Level} {s : State} (gap : s.btx.state = .gap (.broadcast b))
    (waiting : s.btx.waiting = []) (pending : s.fen.resetPending = true) :
    exec (.broadcastGapEnd line) s =
      .next (answerDeferred (fun r => r == .reset) .ok (resetData 0 0)
        (completeReset (gapEnds b.rate (hear 32 line s)))) := by
  refine (exec_event rfl s).trans (congrArg _ ?_)
  simp only [eventEffect, gap, afterBroadcast]
  simp only [gapEnds_btx, hear_eq, State.setBtx, State.setFen, btxHear, waiting, pending]
  rfl

/-- Settles O16: the taking in QUIET or WAKING, and the end of the gap of the RESUME. -/
theorem resetEngineResumesTheBusFirst : Obligations.ResetEngineResumesTheBusFirst := by
  refine ⟨fun tag line s turn quietOrWaking => ?_, fun b line s gap waiting pending item other => ?_⟩
  · let u := ((s.setDrm (drmResetEngine s.drm)).setRst (rstResetEngine s.rst)).setFen
      { s.fen with watching := false, lowMeasure := 0, timer := none, settling := 0, resetPending := true }
    refine ⟨handBroadcast .resume (u.setBtx { s.btx with waiting := [] }), ?_, rfl, rfl, rfl, rfl, fun idle => ?_,
      fun busy => ?_, drmResetEngine_drops s.drm, rfl, rfl, rstResetEngine_sets s.rst⟩
    · rw [exec_of_itsTurn rfl turn]
      exact congrArg _ ((ownerEffect_resetEngine tag line s).trans (if_pos quietOrWaking))
    · exact if_pos idle
    · exact if_neg busy
  · let u := gapEnds b.rate (hear 32 line s)
    obtain ⟨scm, btx, drm, rst⟩ := completeReset_rest u
    obtain ⟨drop, service, frame, drops, services, latch, tail, queue, -, changed⟩ := completeReset_reports u
    have rate : s.busRate = b.rate := by simp only [State.busRate, gap]
    refine ⟨_, exec_broadcastGapEnd_reset gap waiting pending, completeReset_fen u, btx.trans ?_, scm, drm, rst,
      congrArg (linkAnswer _ _ _) (completeReset_link u), drop, service, frame, drops, services, latch, tail, queue,
      changed other⟩
    simp only [u, gapEnds_btx, hear_eq, rate]
    rfl

/-! ### RESET ALL (R20, R178) -/

/-- Settles O17: the state of `resetAllBlocks`. -/
theorem resetAllClearsEveryBlock : Obligations.ResetAllClearsEveryBlock := by
  intro tag s turn
  refine ⟨resetAllBlocks s, answers_of_effect rfl turn rfl, fun i => ?_, fun k => tget_replicate _ _, rfl, rfl, rfl, rfl, rfl,
    rfl, rfl, rfl, rfl, rfl, rfl, rfl, rfl, rfl, rfl, ?_⟩
  · exact tget_tmap _ _ _
  · show ltxCounts false s.link.ltx = _
    cases s.link.ltx <;> simp only [ltxCounts, Bool.and_false]

end Sys2Proof.Machine

namespace Sys2Proof.Machine

/-! ### Places of a list by `getD` -/

theorem getD_append_of_lt {α : Type} {l m : List α} {n : Nat} {d : α} (within : n < l.length) :
    (l ++ m).getD n d = l.getD n d := by
  rw [List.getD_eq_getElem?_getD, List.getD_eq_getElem?_getD, List.getElem?_append_left within]

theorem getD_append_of_le {α : Type} {l m : List α} {n : Nat} {d : α} (beyond : l.length ≤ n) :
    (l ++ m).getD n d = m.getD (n - l.length) d := by
  rw [List.getD_eq_getElem?_getD, List.getD_eq_getElem?_getD, List.getElem?_append_right beyond]

theorem getD_eq_of_lt {α : Type} {l : List α} {n : Nat} {d : α} (within : n < l.length) : l.getD n d = l[n] := by
  rw [List.getD_eq_getElem?_getD, List.getElem?_eq_getElem within, Option.getD_some]

/-! ### The receiver (R153 to R155) -/

theorem abandons_eq (bytes : List Byte) (b : Byte) (framing : Bool) :
    abandons bytes b framing = true ↔ framing = true ∨ bytes = [] ∧ 240 < b.toNat := by
  simp [abandons, Config.payloadLimit]

/-- The character that completes a frame is the fifth after LEN and the payload. -/
theorem isComplete_append (bytes : List Byte) (b : Byte) :
    isComplete (bytes ++ [b]) = true ↔ bytes ≠ [] ∧ bytes.length + 1 = (bytes.getD 0 0).toNat + 5 := by
  cases bytes with
  | nil => simp [isComplete]
  | cons len rest => simp [isComplete]

theorem receive_of_hunting (b : Byte) (framing : Bool) {l : Link} (hunting : l.receiver = .hunting) :
    receive b framing l =
      { l with receiver := if framing = false ∧ b = 0xC3 then .collecting [] else .hunting, breakHold := false } := by
  simp only [receive, hunting, Bool.and_eq_true, Bool.not_eq_true', beq_iff_eq]
  split
  · rfl
  · rw [← hunting]

theorem receive_of_collecting (b : Byte) (framing : Bool) {bytes : List Byte} {l : Link}
    (collecting : l.receiver = .collecting bytes) :
    receive b framing l =
      if abandons bytes b framing = true then abandonFrame { l with breakHold := false }
      else if isComplete (bytes ++ [b]) = true then
        judgeFrame (bytes ++ [b]) { l with receiver := .hunting, breakHold := false }
      else { l with receiver := .collecting (bytes ++ [b]), breakHold := false } := by
  simp only [receive, collecting]

theorem exec_linkFrameComplete {bytes : List Byte} {s : State} (b : Byte) (collecting : s.link.receiver = .collecting bytes)
    (goesOn : abandons bytes b false = false) (complete : isComplete (bytes ++ [b]) = true) :
    exec (.linkFrameComplete b) s =
      .next (s.setLink (judgeFrame (bytes ++ [b]) { s.link with receiver := .hunting, breakHold := false })) := by
  show execLinkFrameComplete b s = _
  simp only [execLinkFrameComplete, collecting, goesOn, complete, and_self, if_true]

theorem exec_linkFrameAbandon {bytes : List Byte} {s : State} {b : Byte} {framing : Bool}
    (collecting : s.link.receiver = .collecting bytes) (abandon : abandons bytes b framing = true) :
    exec (.linkFrameAbandon b framing) s = .next (s.setLink (abandonFrame { s.link with breakHold := false })) := by
  show execLinkFrameAbandon b framing s = _
  simp only [execLinkFrameAbandon, collecting, abandon, if_true]

theorem receiveCharacters_eq (bytes : List Byte) (s : State) :
    receiveCharacters bytes s = s.setLink (bytes.foldl (fun l b => receive b false l) s.link) := by
  induction bytes generalizing s with
  | nil => rfl
  | cons b rest ih => exact ih (s.setLink (receive b false s.link))

/-- The rest of a frame joins what was collected, and its last character has the whole judged. -/
theorem receive_rest {len : Byte} {tail : List Byte} (size : tail.length = len.toNat + 4) (limit : len.toNat ≤ 240)
    (rest bytes : List Byte) (nonempty : rest ≠ []) (whole : bytes ++ rest = len :: tail) (l : Link)
    (collecting : l.receiver = .collecting bytes) :
    rest.foldl (fun l b => receive b false l) l =
      judgeFrame (len :: tail) { l with receiver := .hunting, breakHold := false } := by
  induction rest generalizing bytes l with
  | nil => exact absurd rfl nonempty
  | cons b rest ih =>
    have goesOn : ¬ abandons bytes b false = true := by
      rw [abandons_eq]
      rintro (framing | ⟨rfl, long⟩)
      · cases framing
      · obtain ⟨rfl, -⟩ := List.cons.inj whole
        omega
    have length : bytes.length + (rest.length + 1) = len.toNat + 5 := by
      have := congrArg List.length whole
      simp only [List.length_append, List.length_cons] at this
      omega
    rw [List.foldl_cons, receive_of_collecting b false collecting, if_neg goesOn]
    cases rest with
    | nil =>
      have complete : isComplete (bytes ++ [b]) = true := by
        rw [whole, isComplete]
        simp [size]
      rw [if_pos complete, whole]
      rfl
    | cons c rest =>
      have partly : ¬ isComplete (bytes ++ [b]) = true := by
        rw [isComplete_append]
        rintro ⟨some, full⟩
        cases bytes with
        | nil => exact some rfl
        | cons x xs =>
          obtain ⟨rfl, -⟩ := List.cons.inj whole
          simp only [List.getD_cons_zero, List.length_cons] at full length
          omega
      rw [if_neg partly]
      exact ih (bytes ++ [b]) (by simp) (by simpa using whole) _ rfl

theorem wordFrom_linkWord (w : Word) : wordFrom (highByte w) (lowByte w) = w := by
  apply BitVec.eq_of_getLsbD_eq
  intro i lt
  simp only [wordFrom, highByte, lowByte, BitVec.getLsbD_append, BitVec.getLsbD_setWidth, BitVec.getLsbD_ushiftRight]
  by_cases low : i < 8
  · simp [low]
  · have high : i - 8 < 8 := by omega
    have back : 8 + (i - 8) = i := by omega
    simp [low, high, back]

/-- What the judgement of a frame's characters compares and takes (R155). -/
theorem judgeFrame_append (covered : List Byte) (low high : Byte) (l : Link) :
    judgeFrame (covered ++ [low, high]) l =
      if linkCheck covered = wordFrom high low then
        takeFrame { kind := (covered ++ [low, high]).getD 1 0, tag := (covered ++ [low, high]).getD 2 0,
                    payload := covered.drop 3, check := wordFrom high low } l
      else countBad l := by
  have length : (covered ++ [low, high]).length - 2 = covered.length := by simp
  have low_at : (covered ++ [low, high]).getD covered.length 0 = low := by
    rw [getD_append_of_le (Nat.le_refl _), Nat.sub_self]
    rfl
  have high_at : (covered ++ [low, high]).getD (covered.length + 1) 0 = high := by
    rw [getD_append_of_le (Nat.le_succ _), Nat.succ_sub (Nat.le_refl _), Nat.sub_self]
    rfl
  simp only [judgeFrame, length, List.take_left, low_at, high_at]

/-- A frame with its own check is taken. -/
theorem judgeFrame_linkFrame (kind tag : Byte) (payload : List Byte) (l : Link) :
    judgeFrame (byteOf payload.length :: kind :: tag :: (payload ++ linkWord (frameCheck kind tag payload))) l =
      takeFrame { kind := kind, tag := tag, payload := payload, check := frameCheck kind tag payload } l := by
  refine (judgeFrame_append (byteOf payload.length :: kind :: tag :: payload) _ _ l).trans ?_
  rw [wordFrom_linkWord]
  exact if_pos rfl

/-- The receiver hunts again with every frame's characters. -/
theorem receive_linkFrame (kind tag : Byte) (payload : List Byte) {l : Link} (hunting : l.receiver = .hunting)
    (limit : payload.length ≤ 240) :
    (linkFrame kind tag payload).foldl (fun l b => receive b false l) l =
      takeFrame { kind := kind, tag := tag, payload := payload, check := frameCheck kind tag payload }
        { l with breakHold := false } := by
  have size : (byteOf payload.length).toNat = payload.length := by
    rw [byteOf, BitVec.toNat_ofNat]
    exact Nat.mod_eq_of_lt (by omega)
  have back : ({ l with receiver := RxState.hunting, breakHold := false } : Link) = { l with breakHold := false } := by
    rw [← hunting]
  have rest := receive_rest (len := byteOf payload.length)
    (tail := kind :: tag :: (payload ++ linkWord (frameCheck kind tag payload))) (by simp [size, linkWord]) (by omega)
    _ [] (by simp) rfl { l with receiver := .collecting [], breakHold := false } rfl
  rw [judgeFrame_linkFrame, back] at rest
  rw [← rest, linkFrame, List.cons_append, List.foldl_cons, receive_of_hunting _ _ hunting]
  rfl

/-- Settles O7: the characters of a frame by induction, single characters by the receiver's state. -/
theorem frameCharactersMakeARequest : Obligations.FrameCharactersMakeARequest := by
  refine ⟨fun kind tag payload s hunting limit => ?_, fun b framing s hunting => ?_, fun bytes b s collecting => ?_⟩
  · rw [receiveCharacters_eq, receive_linkFrame kind tag payload hunting limit]
  · exact congrArg (fun l => Host.Outcome.next (s.setLink l)) (receive_of_hunting b framing hunting)
  · have received : ∀ framing, exec (.linkCharacterReceived b framing) s = .next (s.setLink (receive b framing s.link)) :=
      fun _ => rfl
    have short : bytes = [] → ¬ isComplete (bytes ++ [b]) = true := 
      fun empty full => ((isComplete_append bytes b).mp full).1 empty
    have goesOn : (bytes = [] → b.toNat ≤ 240) → ¬ abandons bytes b false = true := fun small => by
      rw [abandons_eq]
      rintro (framing | ⟨empty, long⟩)
      · cases framing
      · exact absurd (small empty) (by omega)
    simp only [received, receive_of_collecting b _ collecting]
    refine ⟨fun empty small => ?_, fun empty long => ?_, fun some partly => ?_, fun some whole => ?_, ?_⟩
    · rw [if_neg (goesOn fun _ => small), if_neg (short empty)]
    · have abandon := (abandons_eq bytes b false).mpr (.inr ⟨empty, long⟩)
      rw [if_pos abandon, exec_linkFrameAbandon collecting abandon]
    · rw [if_neg (goesOn (absurd · some)), if_neg]
      rw [isComplete_append]
      exact fun full => absurd full.2 (by omega)
    · have complete := (isComplete_append bytes b).mpr ⟨some, by omega⟩
      rw [if_neg (goesOn (absurd · some)), if_pos complete,
        exec_linkFrameComplete b collecting (Bool.eq_false_iff.mpr (goesOn (absurd · some))) complete]
    · have abandon := (abandons_eq bytes b true).mpr (.inl rfl)
      rw [if_pos abandon, exec_linkFrameAbandon collecting abandon]

/-- Settles O8: the frame's characters are judged as a whole, or the frame is counted bad. -/
theorem framesCompletedOrAbandoned : Obligations.FramesCompletedOrAbandoned := by
  intro bytes b s
  refine ⟨fun collecting => ⟨fun n length size => ?_, ?_, ?_, ?_, fun empty long => ?_⟩,
    fun hunting => ⟨?_, ?_, fun framing => ?_⟩⟩
  · have some : bytes ≠ [] := by
      rintro rfl
      cases length
    have complete := (isComplete_append bytes b).mpr ⟨some, by omega⟩
    have goesOn : abandons bytes b false = false :=
      Bool.eq_false_iff.mpr (mt (abandons_eq bytes b false).mp (by simp [some]))
    have split : bytes ++ [b] = bytes.take n ++ [bytes.getD n 0, b] := by
      have last : bytes.drop n = [bytes.getD n 0] := by
        rw [List.drop_eq_getElem_cons (by omega), List.drop_of_length_le (by omega), getD_eq_of_lt (by omega)]
      conv => lhs; rw [← List.take_append_drop n bytes, last, List.append_assoc, List.singleton_append]
    have kind : (bytes ++ [b]).getD 1 0 = bytes.getD 1 0 := getD_append_of_lt (by omega)
    have tag : (bytes ++ [b]).getD 2 0 = bytes.getD 2 0 := getD_append_of_lt (by omega)
    rw [exec_linkFrameComplete b collecting goesOn complete]
    have judged := judgeFrame_append (bytes.take n) (bytes.getD n 0) b { s.link with receiver := .hunting, breakHold := false }
    rw [← split, kind, tag] at judged
    rw [judged]
    intro check l
    exact ⟨fun good => by rw [if_pos good], fun bad => by rw [if_neg bad]; rfl⟩
  · show execLinkIdleGapExpiry s = _
    simp only [execLinkIdleGapExpiry, collecting]
    rfl
  · show execLinkBreak s = _
    simp only [execLinkBreak, collecting]
    rfl
  · exact exec_linkFrameAbandon collecting ((abandons_eq bytes b true).mpr (.inl rfl))
  · exact exec_linkFrameAbandon collecting ((abandons_eq bytes b false).mpr (.inr ⟨empty, long⟩))
  · show execLinkIdleGapExpiry s = _
    simp only [execLinkIdleGapExpiry, hunting]
  · show execLinkBreak s = _
    simp only [execLinkBreak, hunting]
  · show execLinkFrameAbandon b framing s = _
    simp only [execLinkFrameAbandon, hunting]

/-! ### The five steps for a frame (R156 to R160) -/

theorem requestOfKind_eq_some (kind : Byte) (r : Request) : requestOfKind kind = some r ↔ r.code = kind := by
  refine ⟨fun found => ?_, fun code => code ▸ requestOfKind_code r⟩
  simpa using List.find?_some found

theorem lengthOk_iff (r : Request) (p : List Byte) :
    lengthOk r p = true ↔
      match r with
      | .entryLoad => 5 ≤ p.length ∧ p.length ≤ 35 ∧ p.length % 2 = 1
      | .submit => 7 ≤ p.length ∧ p.length - 7 = 2 * (p.getD 4 0).toNat
      | .close | .identify | .status | .start | .halt | .quiet | .wake => p.length = 0
      | .ackReports | .reset | .entryRead | .chainRead | .scheduleLength | .dropDetach | .dropRead
      | .dropClearService | .setRead => p.length = 1
      | .entryFree | .chainRemove | .cancel => p.length = 2
      | .dropAttach | .setConfig | .eventMask => p.length = 3
      | .open_ | .chainInsert | .busConfig => p.length = 4
      | .entryAdd => p.length = 9
      | .entrySet => p.length = 11 := by
  cases r <;> simp only [lengthOk, beq_iff_eq, Bool.and_eq_true, decide_eq_true_eq, and_assoc]

theorem anySession_iff (r : Request) : r.anySession = true ↔ r = .open_ ∨ r = .identify ∨ r = .status := by
  cases r <;> decide

theorem pushShort_eq (r : OutReply) (l : Link) :
    pushShort r l = if l.shortCount < 4 then { l with outbox := l.outbox ++ [{ r with origin := .short }] } else l := rfl

theorem shortReply_eq (f : Frame) (st : Status) :
    shortReply f st = {
      kind := if (requestOfKind f.kind).isSome then f.kind + 0x80 else 0xFF, tag := f.tag, payload := [st.code],
      check := f.check, origin := .short } := by
  rw [shortReply, replyKind_eq]

/-- A frame that no reply in memory answers goes by its tag (R157). -/
theorem takeFrame_of_fresh {f : Frame} {l0 : Link}
    (fresh : ∀ m ∈ (restartSilence l0).memory, ¬ (m.tag = f.tag ∧ m.check = f.check)) :
    takeFrame f l0 =
      match (restartSilence l0).placeOf f.tag with
      | some p =>
        if p.check = f.check then restartSilence l0 else pushShort (shortReply f .duplicate) (restartSilence l0)
      | none =>
        if (restartSilence l0).places.length < 4 then acceptFrame f (restartSilence l0)
        else pushShort (shortReply f .busy) (restartSilence l0) := by
  have none : (restartSilence l0).memory.find? (fun m => m.tag == f.tag && m.check == f.check) = none :=
    List.find?_eq_none.mpr fun m mem => by simpa using fresh m mem
  unfold takeFrame
  dsimp only
  rw [none] <;> rfl

/-- A repeat of a sent request is answered from memory (R156). -/
theorem takeFrame_of_repeat {f : Frame} {l0 : Link} {m : OutReply} (mem : m ∈ (restartSilence l0).memory)
    (tag : m.tag = f.tag) (check : m.check = f.check) :
    ∃ m' ∈ (restartSilence l0).memory, m'.tag = f.tag ∧ m'.check = f.check
      ∧ takeFrame f l0 = pushShort m' (restartSilence l0) := by
  cases found : (restartSilence l0).memory.find? (fun m => m.tag == f.tag && m.check == f.check) with
  | none => exact absurd (List.find?_eq_none.mp found m mem) (by simp [tag, check])
  | some m' =>
    have same : m'.tag = f.tag ∧ m'.check = f.check := by simpa using List.find?_some found
    refine ⟨m', List.mem_of_find?_eq_some found, same.1, same.2, ?_⟩
    unfold takeFrame
    dsimp only
    rw [found]

theorem acceptFrame_of_refused {f : Frame} {l : Link} {st : Status} (refused : refusalOf f l = some st) :
    acceptFrame f l = { l with
      places := l.places ++ [{
        tag := f.tag, check := f.check, kind := f.kind, payload := f.payload, inOpen := l.session.state == .opened,
        phase := .ready }],
      outbox := l.outbox ++ [{
        kind := if (requestOfKind f.kind).isSome then f.kind + 0x80 else 0xFF, tag := f.tag, payload := [st.code],
        check := f.check, origin := .request }] } := by
  simp only [acceptFrame, refused, replyTo, replyKind_eq]

theorem acceptFrame_of_passed {f : Frame} {l : Link} (passed : refusalOf f l = none) :
    acceptFrame f l = { l with
      places := l.places ++ [{
        tag := f.tag, check := f.check, kind := f.kind, payload := f.payload, inOpen := l.session.state == .opened,
        phase := .waiting }] } := by
  simp only [acceptFrame, passed]

theorem refusalOf_of_unknown {f : Frame} (l : Link) (unknown : requestOfKind f.kind = none) :
    refusalOf f l = some .unknownRequest := by
  simp only [refusalOf, unknown]

/-- What refuses an accepted frame of a request (R158, R159, R181). -/
theorem refusalOf_of_request {f : Frame} {r : Request} (l : Link) (request : requestOfKind f.kind = some r) :
    refusalOf f l =
      if lengthOk r f.payload = false then some .badLength
      else if l.session.state ≠ .opened ∧ r.anySession = false then some .noSession else none := by
  simp only [refusalOf, request]
  cases lengthOk r f.payload <;> simp

/-- Settles O9: the tables of codes and lengths, then the steps in their order. -/
theorem frameTakenInFiveSteps : Obligations.FrameTakenInFiveSteps := by
  refine ⟨fun kind r => ?_, lengthOk_iff, fun f l0 => ?_⟩
  · rw [requestOfKind_eq_some]
    cases r <;> simp [Request.code, eq_comm]
  · intro l short place kind refused
    refine ⟨fun m mem tag check => takeFrame_of_repeat mem tag check, fun fresh => ?_⟩
    have taken := takeFrame_of_fresh fresh
    refine ⟨fun p at_tag => ?_, fun unused => ⟨fun full => ?_, fun room => ?_⟩⟩
    · rw [taken, show (restartSilence l0).placeOf f.tag = some p from at_tag]
      refine ⟨fun same => if_pos same, fun other => (if_neg other).trans ?_⟩
      rw [shortReply_eq]
      rfl
    · rw [taken, show (restartSilence l0).placeOf f.tag = none from unused]
      refine (if_neg (Nat.not_lt.mpr full)).trans ?_
      rw [shortReply_eq]
      rfl
    · have accepted : takeFrame f l0 = acceptFrame f l := by
        rw [taken, show (restartSilence l0).placeOf f.tag = none from unused]
        exact if_pos room
      rw [accepted]
      refine ⟨fun unknown => acceptFrame_of_refused (refusalOf_of_unknown l unknown), fun r request => ?_⟩
      have refusal := refusalOf_of_request l request
      refine ⟨fun bad => acceptFrame_of_refused (refusal.trans (if_pos bad)), fun good closed o i st => ?_,
        fun good passes => ?_⟩
      · have notAny : r.anySession = false := by
          rw [← Bool.not_eq_true, anySession_iff]
          simp [o, i, st]
        exact acceptFrame_of_refused (refusal.trans ((if_neg (by simp [good])).trans (if_pos ⟨closed, notAny⟩)))
      · refine acceptFrame_of_passed (refusal.trans ((if_neg (by simp [good])).trans (if_neg ?_)))
        rintro ⟨closed, notAny⟩
        rw [← Bool.not_eq_true, anySession_iff] at notAny
        exact passes.elim closed notAny

end Sys2Proof.Machine

namespace Sys2Proof.Machine

/-! ### The judgement of an answer (R59, R60) -/

theorem busValues_length (bytes : List Byte) : (busValues bytes).length = bytes.length / 2 := by
  induction bytes using busValues.induct with
  | case1 h l rest ih =>
    simp only [busValues, List.length_cons, ih]
    omega
  | case2 bytes short =>
    match bytes, short with
    | [], _ => rfl
    | [_], _ => simp [busValues]
    | h :: l :: rest, short => exact absurd rfl (short h l rest)

theorem busValues_getElem? (bytes : List Byte) (k : Nat) (inside : 2 * k + 1 < bytes.length) :
    (busValues bytes)[k]? = some (wordFrom (bytes.getD (2 * k) 0) (bytes.getD (2 * k + 1) 0)) := by
  induction bytes using busValues.induct generalizing k with
  | case1 h l rest ih =>
    cases k with
    | zero => rfl
    | succ k =>
      rw [List.length_cons, List.length_cons] at inside
      simpa [busValues, Nat.mul_succ] using ih k (by omega)
  | case2 bytes short =>
    match bytes, short with
    | [], _ => simp at inside
    | [_], _ => simp at inside
    | h :: l :: rest, short => exact absurd rfl (short h l rest)

/-- The values of a valid answer, by the bytes of the whole. -/
theorem busValues_window {bytes : List Byte} {count : Nat} (length : bytes.length = 5 + 2 * count) :
    (busValues ((bytes.take (bytes.length - 2)).drop 3)).length = count
      ∧ ∀ k, k < count → (busValues ((bytes.take (bytes.length - 2)).drop 3))[k]? =
          some (wordFrom (bytes.getD (3 + 2 * k) 0) (bytes.getD (4 + 2 * k) 0)) := by
  have window : ((bytes.take (bytes.length - 2)).drop 3).length = 2 * count := by
    rw [List.length_drop, List.length_take]
    omega
  have inside : ∀ j, j < 2 * count → ((bytes.take (bytes.length - 2)).drop 3).getD j 0 = bytes.getD (3 + j) 0 := by
    intro j lt
    simp only [List.getD_eq_getElem?_getD, List.getElem?_drop]
    rw [List.getElem?_take_of_lt (by omega)]
  refine ⟨by rw [busValues_length, window]; omega, fun k lt => ?_⟩
  rw [busValues_getElem? _ k (by omega), inside _ (by omega), inside _ (by omega)]
  congr 3
  omega

/-- The last tests, for an answer in time with good stop bits (R59). -/
theorem judgeAnswer_of_clean {c : Capture} {t : Taken} (inTime : t.overran = false) (long : 5 ≤ t.bytes.length)
    (clean : ∀ x ∈ t.bytes, x.2 = false) :
    judgeAnswer c t =
      let bytes := t.bytes.map Prod.fst
      let n := bytes.length - 2
      let nin := (bytes.getD 2 0).toNat
      if busCheck (bytes.take n) ≠ wordFrom (bytes.getD n 0) (bytes.getD (n + 1) 0) then .error .badCheck
      else if bytes.getD 0 0 ≠ dropByte c.drop then .error .wrongDrop
      else if bytes.length ≠ 5 + 2 * nin then .error .badLength
      else if nin ≠ c.inCount then .error .badLength
      else
        .valid (faultFlag (bytes.getD 1 0)) (serviceFlag (bytes.getD 1 0)) (busValues ((bytes.take n).drop 3)) := by
  have noFraming : ¬ t.bytes.any Prod.snd = true := by
    rw [List.any_eq_true]
    rintro ⟨x, mem, bad⟩
    rw [clean x mem] at bad
    cases bad
  exact (if_neg (by simp [inTime])).trans ((if_neg (Nat.not_lt.mpr long)).trans (if_neg noFraming))

/-- Settles O44: the tests one after another. -/
theorem judgementTestsInOrder : Obligations.JudgementTestsInOrder := by
  intro c t bytes n nin check
  have length : t.bytes.length = bytes.length := (List.length_map _).symm
  refine ⟨fun overran => if_pos overran, fun whole => ?_⟩
  have inTime : ¬ t.overran = true := by simp [whole]
  refine ⟨fun short => (if_neg inTime).trans (if_pos (by omega)), fun long => ?_⟩
  have notShort : ¬ t.bytes.length < 5 := by omega
  refine ⟨fun framing => ?_, fun clean => ?_⟩
  · exact (if_neg inTime).trans ((if_neg notShort).trans (if_pos (List.any_eq_true.mpr framing)))
  have judged : judgeAnswer c t =
      if busCheck (bytes.take n) ≠ check then .error .badCheck
      else if bytes.getD 0 0 ≠ byteOf (c.drop.val + 1) then .error .wrongDrop
      else if bytes.length ≠ 5 + 2 * nin then .error .badLength
      else if nin ≠ c.inCount then .error .badLength
      else
        .valid (faultFlag (bytes.getD 1 0)) (serviceFlag (bytes.getD 1 0)) (busValues ((bytes.take n).drop 3)) :=
    judgeAnswer_of_clean whole (Nat.not_lt.mp notShort) clean
  rw [judged]
  refine ⟨fun bad => if_pos bad, fun good => ?_⟩
  rw [if_neg (fun unequal => unequal good)]
  refine ⟨fun other => if_pos other, fun ours => ?_⟩
  rw [if_neg (fun unequal => unequal ours)]
  refine ⟨fun unequal => if_pos unequal, fun equal => ?_⟩
  rw [if_neg (fun unequal => unequal equal)]
  refine ⟨fun unasked => if_pos unasked, fun asked => ?_⟩
  rw [if_neg (fun unequal => unequal asked)]
  obtain ⟨count, values⟩ := busValues_window (count := c.inCount) (asked ▸ equal)
  exact ⟨_, count, rfl, values⟩

/-! ### The drop records (R74 to R86) -/

theorem ready_iff (x : DropState) : x.ready = true ↔ x = .online ∨ x = .failing := by
  cases x <;> decide

/-- The paths of an item's outcome (R76, R77). -/
theorem dropItem_of_not_ready {r : DropRec} (online : r.state ≠ .online) (failing : r.state ≠ .failing) (ok : Bool) :
    dropItem ok r = (r, none) := if_neg (by simp [ready_iff, online, failing])

theorem dropItem_of_ready {r : DropRec} (ready : r.state = .online ∨ r.state = .failing) (ok : Bool) :
    dropItem ok r =
      if ok then ({ r with state := .online, failures := 0 }, none)
      else
        let n := if r.state = .online then 1 else r.failures + 1
        let total := min (r.total + 1) 65535
        if n < r.threshold then ({ r with state := .failing, failures := n, due := 0, total := total }, none)
        else
          ({ r with state := .quarantined, failures := n, due := r.interval, total := total },
           some { left := r.state, entered := .quarantined, kind := .lost }) :=
  if_pos ((ready_iff r.state).mpr ready)

theorem dropProbe_of_settled {r : DropRec} (seeking : r.state ≠ .seeking) (quarantined : r.state ≠ .quarantined)
    (good : Option Identity) : dropProbe good r = (r, none) := by
  unfold dropProbe
  cases state : r.state with
  | seeking => exact absurd state seeking
  | quarantined => exact absurd state quarantined
  | _ => cases good <;> rfl

/-- Settles O48: by the state of the record, then the offer of its event. -/
theorem dropRecordsMove : Obligations.DropRecordsMove := by
  refine ⟨fun r id => ?_, fun d ok s => ?_, fun fault service values e => ?_, fun r s => ?_, fun d flag s => ?_⟩
  · intro total lost arrived online
    refine ⟨fun notOnline notFailing => dropItem_of_not_ready notOnline notFailing, fun ready => dropItem_of_ready ready true,
      fun state several => ?_, fun state single => ?_, fun state fewer => ?_, fun state last => ?_, fun state => ⟨?_, ?_⟩,
      fun state => ⟨?_, fun old known => ⟨fun same => ?_, fun other => ?_⟩⟩, dropProbe_of_settled⟩
    · rw [dropItem_of_ready (.inl state)]
      simp [state, total, show 1 < r.threshold from several]
    · rw [dropItem_of_ready (.inl state)]
      simp [state, total, lost, single]
    · rw [dropItem_of_ready (.inr state)]
      simp [state, total, fewer]
    · rw [dropItem_of_ready (.inr state)]
      simp [state, total, lost, last]
    · simp only [dropProbe, state, online, arrived]
    · simp only [dropProbe, state]
    · simp only [dropProbe, state]
    · simp only [dropProbe, state, known, Option.map_some, same, if_true, online, arrived]
    · simp only [dropProbe, state, known, Option.map_some, Option.some.injEq, other, if_false, online, arrived]
  · intro out u
    refine ⟨fun none => ?_, fun x some => ?_⟩
    · show applyDrop d out s = u
      simp only [applyDrop, none, u]
    · show applyDrop d out s = _
      simp only [applyDrop, some, u]
  · intro points
    refine ⟨rfl, fun outside => if_neg ?_, fun low high => if_pos ⟨low, high⟩⟩
    show ¬ (1 ≤ points ∧ points ≤ 64)
    omega
  · intro emptied
    refine ⟨fun none => ?_, fun p some => ⟨fun dead => ?_, fun live quiet => ?_, fun x live event => ?_⟩⟩
    · simp only [probeOutcome, none, emptied]
    · simp only [probeOutcome, some, dead, emptied, Bool.false_eq_true, if_false]
    · simp only [probeOutcome, some, live, if_true, applyDrop, quiet]
      rfl
    · simp only [probeOutcome, some, live, if_true, applyDrop, event]
      rfl
  · intro r
    refine ⟨fun nothing => if_neg ?_, fun raised attached clear => if_pos ⟨raised, clear, attached⟩⟩
    rintro ⟨raised, clear, attached⟩
    rcases nothing with lowered | off | set
    · exact absurd raised (by simp [lowered])
    · exact attached off
    · exact absurd clear (by simp [r, set])

/-! ### Deposits (R109 to R113) -/

theorem deposit_of_latest {k : Fin Config.setCount} {s : State} (latest : (tget s.rst.sets k).mode = .latest) (x : Sample) :
    deposit k x s = putSet k (addToLatest x (tget s.rst.sets k)) s := by
  simp only [deposit, latest]

/-- Settles O49: by the mode of the set and its fill. -/
theorem depositFollowsTheMode : Obligations.DepositFollowsTheMode := by
  intro k x s r put
  refine ⟨fun off => ?_, fun block n at_fill room => ?_, fun block full a b c h0 h1 h2 => ?_,
    fun latest => ⟨fun empty => ?_, fun some => ?_⟩⟩
  · simp only [deposit, show (tget s.rst.sets k).mode = .off from off]
  · have slot : Fin.ofNat 4 r.fill = n := Fin.ext (by rw [← at_fill]; exact Nat.mod_eq_of_lt n.isLt)
    have joins : deposit k x s = putSet k (addToBlock x r) s := by
      simp only [deposit, show (tget s.rst.sets k).mode = .block from block]
      exact if_pos (Nat.succ_lt_succ room)
    rw [joins, addToBlock, slot]
    rfl
  · have samples : setSamples r = [a, b, c] := by
      refine setSamples_eq ?_
      rw [block]
      refine ⟨full.symm, Nat.le_of_eq full, fun j lt => ?_⟩
      rw [full] at lt
      match j, lt with
      | 0, _ => exact h0
      | 1, _ => exact h1
      | 2, _ => exact h2
    have fills : ¬ r.fill + 1 < 4 := by omega
    intro after admitted
    have cases : deposit k x s =
        if s.admits then putSet k (afterBlock true r) (s.setRep (enqueue (.setBlock (blockReport k x r)) s.rep))
        else putSet k (afterBlock false r) s := by
      simp only [deposit, show (tget s.rst.sets k).mode = .block from block]
      exact if_neg fills
    rw [cases]
    refine ⟨fun fits => ?_, fun refused => ?_⟩
    · rw [if_pos ((admits_iff s).mpr fits), blockReport, samples]
      rfl
    · rw [admits_eq_false refused, if_neg Bool.false_ne_true]
      rfl
  · rw [deposit_of_latest latest, addToLatest]
    refine (congrArg (fun pos => put { r with slots := tput r.slots pos (some x), newest := pos, latest := _ })
      (if_pos empty)).trans ?_
    rw [show (tget s.rst.sets k).latest = 0 from empty]
    rfl
  · rw [deposit_of_latest latest, addToLatest]
    exact congrArg (fun pos => put { r with slots := tput r.slots pos (.some x), newest := pos, latest := _ })
      (if_neg (Nat.pos_iff_ne_zero.mp some))

/-! ### The outcome of a periodic item (R19, R44) -/

theorem pairBody_eq_none {m : Scm} {p : PlanPair}
    (stale : (tget m.entries p.index).body = none ∨ (tget m.entries p.index).gen ≠ p.gen) : pairBody m p = none := by
  unfold pairBody
  rcases stale with free | old
  · simp [free]
  · exact if_neg old

theorem pairBody_eq_some {m : Scm} {p : PlanPair} {b : EntryBody} (body : (tget m.entries p.index).body = some b)
    (gen : (tget m.entries p.index).gen = p.gen) : pairBody m p = some b := (if_pos gen).trans body

theorem success_eq (r : AttemptResult) :
    r.success = (match r with | .valid _ _ _ => true | .error _ => false) := by
  cases r <;> rfl

/-- The branches of the recording, in the model's own words. -/
theorem recordPeriodic_of_none {p : PlanPair} {s : State} (d : Fin Config.dropCount) (r : AttemptResult)
    (stale : pairBody s.scm p = none) : recordPeriodic p d r s = dropOutcome d r.success s := by
  simp only [recordPeriodic, stale]

theorem recordPeriodic_of_some {p : PlanPair} {s : State} {b : EntryBody} (d : Fin Config.dropCount) (r : AttemptResult)
    (pair : pairBody s.scm p = some b) :
    recordPeriodic p d r s =
      let u := dropOutcome d r.success (putBody p.index (bodyOutcome r b) s)
      match r, b.route with
      | .valid fault service values, some route => routeDeposit p route fault service values u
      | _, _ => u := by
  simp only [recordPeriodic, pair] <;> rfl

/-- The drop manager's part reads nothing of the schedule memory. -/
theorem dropOutcome_setScm (d : Fin Config.dropCount) (ok : Bool) (m : Scm) (s : State) :
    dropOutcome d ok (s.setScm m) = (dropOutcome d ok s).setScm m := by
  show applyDrop d (dropItem ok (tget s.drm.drops d)) (s.setScm m) = _
  unfold dropOutcome applyDrop
  cases (dropItem ok (tget s.drm.drops d)).2 <;> rfl

theorem recordPeriodic_drm (p : PlanPair) (d : Fin Config.dropCount) (r : AttemptResult) (s : State) :
    (recordPeriodic p d r s).drm = (dropOutcome d r.success s).drm := by
  cases pair : pairBody s.scm p with
  | none => rw [recordPeriodic_of_none d r pair]
  | some b =>
    have same : (dropOutcome d r.success (putBody p.index (bodyOutcome r b) s)).drm = (dropOutcome d r.success s).drm := by
      rw [putBody, dropOutcome_setScm]
      rfl
    rw [recordPeriodic_of_some d r pair]
    dsimp only
    split <;> simp [same]

/-- Settles O46: by the handle of the pair, then the result and the route. -/
theorem periodicOutcomeIsRecorded : Obligations.PeriodicOutcomeIsRecorded := by
  intro p d r s t e ok
  have success : r.success = ok := success_eq r
  refine ⟨fun stale => ?_, fun b body gen => ?_, ?_, by simp [t], by simp [t], by simp [t]⟩
  · rw [← success]
    exact recordPeriodic_of_none d r (pairBody_eq_none stale)
  · intro u
    have recorded : t = _ := recordPeriodic_of_some d r (pairBody_eq_some body gen)
    have put : dropOutcome d r.success (putBody p.index (bodyOutcome r b) s) = u := by
      rw [success]
      cases r <;> rfl
    simp only [put] at recorded
    refine ⟨fun nothing => ?_, fun fault service values route valid routed => ?_⟩
    · rw [recorded]
      rcases nothing with ⟨x, rfl⟩ | unrouted
      · rfl
      · rw [unrouted]
        cases r <;> rfl
    · have width : tget u.rst.sets = tget s.rst.sets := by simp [u]
      subst valid
      rw [routed] at recorded
      rw [recorded]
      simp only [routeDeposit, width, u]
      exact ⟨fun outside => if_neg (Nat.not_le.mpr outside), fun inside => by rw [if_pos inside]; simp⟩
  · rw [← success]
    exact recordPeriodic_drm p d r s

end Sys2Proof.Machine

namespace Sys2Proof.Machine

/-! ### The transmit line (R161 to R168) -/

theorem crcShift_eq (poly reg : Word) :
    crcShift poly reg = if reg.getLsbD 15 then (reg <<< 1) ^^^ poly else reg <<< 1 := by
  rw [crcShift, BitVec.msb_eq_getLsbD_last]

/-- A check register takes eight shifts for each byte (R185). -/
theorem crc_eq (poly init : Word) (bytes : List Byte) :
    bytes.foldl (crcByte poly) init =
      bytes.foldl (fun (r : Word) (b : Byte) =>
        (List.range 8).foldl (fun r _ => if r.getLsbD 15 then (r <<< 1) ^^^ poly else r <<< 1)
          (r ^^^ ((b.setWidth 16 : Word) <<< 8))) init := by
  refine congrArg (fun shifts => bytes.foldl shifts init) (funext fun r => funext fun b => ?_)
  simp only [← crcShift_eq]
  rfl

theorem reportToSend_of_may {l : Link} {p : Rep}
    (may : l.session.state = .opened ∧ l.send.path = .sending
      ∧ (l.send.position < l.send.unacked ∨ (l.send.position = l.send.unacked ∧ l.send.unacked < l.session.window))) :
    reportToSend l p = p.queue[l.send.position]? := if_pos may

theorem reportToSend_eq_none {l : Link} {p : Rep}
    (not : l.session.state ≠ .opened ∨ l.send.path = .stalled
      ∨ ¬ (l.send.position < l.send.unacked ∨ (l.send.position = l.send.unacked ∧ l.send.unacked < l.session.window))
      ∨ p.queue.length ≤ l.send.position) :
    reportToSend l p = none := by
  unfold reportToSend
  split
  · rename_i may
    obtain ⟨opened, sending, position⟩ := may
    rcases not with closed | stalled | cannot | beyond
    · exact absurd opened closed
    · exact absurd (stalled.symm.trans sending) (by decide)
    · exact absurd position cannot
    · exact List.getElem?_eq_none beyond
  · rfl

theorem endsSession_iff (r : OutReply) (l : Link) :
    endsSession r l = true ↔ l.session.state = .closing ∧ r.kind = 0x82 ∧ r.payload = [0] := by
  have kind : replyKind Request.close.code = 0x82 := by decide
  simp [endsSession, kind, Status.code, and_assoc]

/-- The report frames' codes and payloads, field by field (10.5). -/
theorem ltxBytes_report (q : Queued) (counts : Bool) :
    ltxBytes (.report q counts) =
      0xC3 :: byteOf q.report.payload.length :: q.report.code :: q.seq :: q.report.payload
        ++ linkWord (linkCheck (byteOf q.report.payload.length :: q.report.code :: q.seq :: q.report.payload)) := rfl

/-- Settles O50: the frames on LTX, the check, and the three commands by what is on LTX and in the outbox. -/
theorem transmitLine : Obligations.TransmitLine := by
  refine ⟨?_, fun bytes => crc_eq _ _ _, fun s => ?_, fun r s onLtx => ⟨fun request notLast => ?_, fun other => ?_⟩⟩
  · intro two marks frame report
    have same : ∀ r : Report, report r = (r.code, r.payload) := by
      have word : ∀ n, linkWord (wordOf n) = [byteOf n, byteOf (n / 256)] := linkWord_wordOf
      have mark : ∀ f v, marks f v = marksByte f v := fun f v => (marksByte_eq f v).symm
      intro r
      cases r with
      | ticketDone r =>
        simp only [report, mark]
        rfl
      | setBlock r =>
        simp only [report, mark]
        rfl
      | engineState c count => 
        obtain ⟨new, left, cause, fr⟩ := c
        cases cause <;> rfl
      | dropState d c count =>
        obtain ⟨left, entered, kind⟩ := c
        cases kind <;> rfl
      | service d => rfl
      | frameEvent f =>
        simp only [report, Report.payload, Report.code, word]
        rfl
    refine ⟨fun r => rfl, fun q counts => ?_, rfl, rfl, rfl⟩
    rw [same]
    rfl
  · intro l mayResend mayBegin
    refine ⟨fun busy => if_neg busy, fun idle r rest outbox => ?_,
      fun idle outbox => ⟨fun q opened sending may at_q => ?_, fun not => ?_⟩⟩
    · refine (if_pos idle).trans ?_
      simp only [show s.link.outbox = r :: rest from outbox]
      rfl
    · have send : reportToSend s.link s.rep = some q := (reportToSend_of_may ⟨opened, sending, may⟩).trans at_q
      have first : s.link.send.position = s.link.send.unacked ↔ mayBegin := by
        refine ⟨fun same => may.resolve_left fun less => ?_, fun begins => begins.1⟩
        exact absurd same (Nat.ne_of_lt less)
      have starts : exec .txFrameStart s = .next (s.setLink (linkSendReport q s.link)) := by
        refine (if_pos idle).trans ?_
        simp only [show s.link.outbox = [] from outbox, send]
      rw [starts, linkSendReport]
      simp only [first]
      rfl
    · have none : reportToSend s.link s.rep = none := reportToSend_eq_none not
      refine (if_pos idle).trans ?_
      simp only [show s.link.outbox = [] from outbox, none]
  · have cases : exec .replySent s =
        if endsSession r s.link then .next (sessionEnd .close (s.setLink (linkSent r s.link)))
        else .next (s.setLink (linkSent r s.link)) := by
      show execReplySent s = _
      simp only [execReplySent, onLtx, request]
    rw [cases, if_neg (mt (endsSession_iff r s.link).mp notLast)]
    rfl
  · show execReplySent s = _
    cases origin : r.origin with
    | request => exact absurd origin other
    | short => simp only [execReplySent, onLtx, origin]
    | abandoned => simp only [execReplySent, onLtx, origin]

/-- Settles O51: by what is on LTX, the resend timer and its count. -/
theorem reportsAreSentAndSentAgain : Obligations.ReportsAreSentAndSentAgain := by
  intro s l load
  refine ⟨fun q counts onLtx => ?_, fun stopped => ?_, fun runs => ⟨fun few => ?_, fun many => ?_⟩⟩
  · refine (exec_event rfl s).trans (congrArg _ ?_)
    simp only [eventEffect, show s.link.ltx = .report q counts from onLtx]
    cases path : s.link.send.path <;> rfl
  · exact if_neg (by simp [show s.link.send.timer = none from stopped])
  · refine (if_pos runs).trans ?_
    have again : linkResend s.link = { l with
        send := { l.send with position := 0, resends := l.send.resends + 1, timer := resendTimer l.send.unacked l },
        ltx := ltxCounts false l.ltx } := if_pos (Nat.succ_lt_succ few)
    rw [again, ltxCounts_eq]
    rfl
  · refine (if_pos runs).trans ?_
    have stalls : linkResend s.link = { l with
        send := { l.send with resends := l.send.resends + 1, timer := none, path := .stalled } } :=
      if_neg (Nat.not_lt.mpr (Nat.succ_le_succ many))
    rw [stalls]

/-! ### The end of a session (R173) -/

/-- Both ends of a session are the end of one and the same state. -/
theorem exec_of_sessionEnd {s0 s : State} {cause : EndCause} {c : Instr}
    (ends : (c = .silenceTimeout ∧ cause = .silence ∧ s = s0 ∧ s0.link.session.silence.isSome = true)
      ∨ (c = .replySent ∧ cause = .close ∧ s0.link.session.state = .closing
        ∧ ∃ r, s0.link.ltx = .reply r ∧ r.origin = .request ∧ r.kind = 0x82 ∧ r.payload = [0]
          ∧ s = s0.setLink (linkSent r s0.link))) :
    exec c s0 = .next (sessionEnd cause s) := by
  rcases ends with ⟨rfl, rfl, rfl, runs⟩ | ⟨rfl, rfl, closing, r, onLtx, request, kind, payload, rfl⟩
  · exact if_pos runs
  · show execReplySent s0 = _
    simp only [execReplySent, onLtx, request, (endsSession_iff r s0.link).mpr ⟨closing, kind, payload⟩, if_true]

/-- The state after steps 1 to 4 of a session end, before the halt claim. -/
def sessionEnded (cause : EndCause) (s : State) : State :=
  ((s.setLink (linkEnd cause s.link)).setRep (repEnd s.rep)).setFen (fenEnd s.fen)

theorem sessionEnd_eq (cause : EndCause) (s : State) :
    sessionEnd cause s = if s.link.session.action = .halt then haltClaim (sessionEnded cause s) else sessionEnded cause s :=
  rfl

/-- The claim by the engine state (R31). -/
theorem haltClaim_eq {s : State} (notPending : s.fen.resetPending = false) :
    haltClaim s =
      match s.fen.engine with
      | .running =>
        if s.fen.item.isSome then enterEngine .halting .linkLoss (s.setFen { s.fen with haltCause := .linkLoss })
        else carryQuiet .linkLoss (enterStopped .linkLoss s)
      | .halting => s.setFen { s.fen with haltCause := .linkLoss }
      | .waking => enterStopped .linkLoss s
      | .stopped | .quiet => s := by
  unfold haltClaim
  rw [if_neg (by simp [notPending])] <;> rfl

/-- Settles O52: both causes end the session of one state; then the claim by the engine state. -/
theorem sessionEnds : Obligations.SessionEnds := by
  intro s0 cause c s ends kept u change stoppedFen
  have runs : exec c s0 = .next (sessionEnd cause s) := exec_of_sessionEnd ends
  have ended : sessionEnded cause s = u := rfl
  rw [runs, sessionEnd_eq, ended]
  refine ⟨fun goes => by rw [goes]; rfl, fun halts notPending => ?_⟩
  rw [if_pos halts]
  have claim := haltClaim_eq (s := u) notPending
  refine ⟨fun still => ?_, fun halting => ?_, fun running item => ?_, fun running none => ?_, fun waking stage => ?_⟩
  · rw [claim]
    rcases still with stopped | quiet
    · rw [show u.fen.engine = .stopped from stopped]
    · rw [show u.fen.engine = .quiet from quiet]
  · rw [claim, show u.fen.engine = .halting from halting]
  · rw [claim, show u.fen.engine = .running from running]
    have isSome : u.fen.item.isSome = true := Option.isSome_map.trans item
    simp only [isSome, if_true]
    rw [enterEngine, ← running]
    rfl
  · have claims : haltClaim u = carryQuiet .linkLoss (enterStopped .linkLoss u) := by
      have isNone : u.fen.item = .none := congrArg (Option.map clearMark) none
      rw [claim, show u.fen.engine = .running from running, isNone]
      rfl
    rw [claims, enterStopped_eq, show u.fen.engine = .running from running]
    exact ⟨fun noQuiet => congrArg _ (if_neg (show ¬ s.fen.quietPending = true by simp [noQuiet])),
      fun quiet => congrArg _ (if_pos quiet)⟩
  · rw [claim, show u.fen.engine = .waking from waking]
    refine congrArg _ ((enterStopped_eq .linkLoss u).trans ?_)
    rw [show u.fen.engine = .waking from waking, if_neg (fun periodic => stage periodic.1)]
    rfl

end Sys2Proof.Machine

namespace Sys2Proof.Machine

/-! ### Quiet and settling boundaries (R141, R148) -/

theorem hearAll_setBtx (line : List Level) (s : State) :
    hearAll line s = (s.setFen { s.fen with timer := s.fen.timer.map (· + (s.btx.heard ++ line).length) }).setBtx
      (btxHear s.busRate (s.btx.heard ++ line).length (s.btx.heard ++ line) s.btx) := rfl

/-- Settles O39: both boundaries can fall, and their effects are the model's. -/
theorem quietAndSettlingBoundaries : Obligations.QuietAndSettlingBoundaries := by
  intro line s timer item idle waiting notDue seen rate
  have falls : boundaryFalls s = true := (boundaryFalls_iff s).mpr ⟨timer, item, idle, waiting, notDue⟩
  refine ⟨fun running quiet => ?_, fun waking more => ?_, fun waking settled => ?_⟩
  · refine (if_pos ⟨falls, running, quiet⟩).trans ?_
    rw [quietBoundary, goQuiet_eq, running, btxHand, if_pos idle]
    rfl
  · refine (if_pos ⟨falls, waking⟩).trans ((if_pos more).trans ?_)
    have begins : ∀ h : Handed, btxHand h (hearAll line s).btx = btxBegin h (hearAll line s).btx := fun _ => if_pos idle
    exact congrArg (fun x => Host.Outcome.next (State.setBtx _ x)) (begins _)
  · intro u
    refine (if_pos ⟨falls, waking⟩).trans ((if_neg (by omega)).trans ?_)
    rw [endSettling, enterEngine, waking]
    rfl

/-! ### The wake monitor (R145, R147) -/

/-- The line is low at its ticks from `j` to before `k`. -/
def LowFrom (line : List Level) (j k : Nat) : Prop := ∀ x, j ≤ x → x < k → line.getD x .high = .low

/-- A line is low throughout, or there is a last high tick. -/
theorem lowFrom_or (line : List Level) (k : Nat) :
    LowFrom line 0 k ∨ ∃ j, j < k ∧ line.getD j .high = .high ∧ LowFrom line (j + 1) k := by
  induction k with
  | zero => exact .inl fun x _ lt => absurd lt (Nat.not_lt_zero x)
  | succ k ih =>
    cases level : line.getD k .high with
    | high => exact .inr ⟨k, Nat.lt_succ_self k, level, fun x low lt => absurd lt (by omega)⟩
    | low =>
      have extend : ∀ j, LowFrom line j k → LowFrom line j (k + 1) := fun j before x le lt => by
        rcases Nat.lt_succ_iff_lt_or_eq.mp lt with lt | rfl
        · exact before x le lt
        · exact level
      rcases ih with all | ⟨j, lt, high, low⟩
      · exact .inl (extend 0 all)
      · exact .inr ⟨j, Nat.lt_succ_of_lt lt, high, extend (j + 1) low⟩

/-- The ticks of a line's first part are those of the line. -/
theorem take_getD_of_lt (line : List Level) {x k : Nat} (lt : x < k) :
    (line.take k).getD x .high = line.getD x .high := by
  simp only [List.getD_eq_getElem?_getD, List.getElem?_take_of_lt lt]

/-- The filter after `k` ticks: what was measured before counts when no tick was high (R145). -/
theorem measure_take (line : List Level) (m : Nat) {k : Nat} (inside : k ≤ line.length) :
    (LowFrom line 0 k → (line.take k).foldl measureTick m = m + k)
      ∧ ∀ j, j < k → line.getD j .high = .high → LowFrom line (j + 1) k →
          (line.take k).foldl measureTick m = k - 1 - j := by
  obtain ⟨all, last⟩ := measure_eq (line.take k) m
  have length : (line.take k).length = k := List.length_take_of_le inside
  rw [length] at all last
  refine ⟨fun low => all fun x lt => ?_, fun j lt high low => last j lt ?_ fun x above lt => ?_⟩
  · rw [take_getD_of_lt line lt]
    exact low x (Nat.zero_le x) lt
  · rw [take_getD_of_lt line lt]
    exact high
  · rw [take_getD_of_lt line lt]
    exact low x above lt

/-- A pulse is there exactly when the filter has measured 16 bit-times. -/
theorem pulse_iff (line : List Level) (m : Nat) {k : Nat} (inside : k ≤ line.length) :
    (LowFrom line 0 k ∧ 64 ≤ m + k) ∨ (∃ j, LowFrom line j k ∧ 64 ≤ k - j) ↔
      64 ≤ (line.take k).foldl measureTick m := by
  obtain ⟨all, last⟩ := measure_take line m inside
  rcases lowFrom_or line k with low | ⟨j, lt, high, low⟩
  · rw [all low]
    refine ⟨fun pulse => ?_, fun enough => .inl ⟨low, enough⟩⟩
    rcases pulse with ⟨-, enough⟩ | ⟨i, -, long⟩
    · exact enough
    · omega
  · rw [last j lt high low]
    have ends : ∀ i, LowFrom line i k → j < i := fun i run => by
      refine Classical.byContradiction fun notAfter => ?_
      have := run j (Nat.not_lt.mp notAfter) lt
      rw [high] at this
      cases this
    refine ⟨fun pulse => ?_, fun enough => .inr ⟨j + 1, low, by omega⟩⟩
    rcases pulse with ⟨run, -⟩ | ⟨i, run, long⟩
    · exact absurd (ends 0 run) (Nat.not_lt_zero j)
    · have := ends i run
      omega

theorem ticksOf_take (k : Nat) (line : List Level) : ticksOf k (line.take k) = ticksOf k line := by
  apply List.ext_getElem?
  intro x
  by_cases lt : x < k
  · have same := (ticksOf_getD k x (line.take k) lt).trans ((take_getD_of_lt line lt).trans (ticksOf_getD k x line lt).symm)
    rw [getD_eq_of_lt (by simpa using lt), getD_eq_of_lt (by simpa using lt)] at same
    rw [List.getElem?_eq_getElem (by simpa using lt), List.getElem?_eq_getElem (by simpa using lt), same]
  · rw [List.getElem?_eq_none (by simpa using lt), List.getElem?_eq_none (by simpa using lt)]

/-- Settles O40: a pulse at a tick is the filter's 16 bit-times there. -/
theorem wakePulseWakesTheEngine : Obligations.WakePulseWakesTheEngine := by
  intro line s watches seen lowFrom pulse
  have filtered : ∀ k, pulse k ↔ 1 ≤ k ∧ k ≤ seen.length ∧ 64 ≤ (seen.take k).foldl measureTick s.fen.lowMeasure :=
    fun k => and_congr_right fun _ => and_congr_right fun inside => pulse_iff seen s.fen.lowMeasure inside
  have exec_eq : exec (.wakePulse line) s = execWakePulse line s := rfl
  refine ⟨fun idle => if_neg idle, fun watching noPulse => ?_, fun watching idle k at_k first => ?_⟩
  · have none : pulseAt s.fen.lowMeasure seen = none := by
      rw [pulseAt_eq_none]
      intro k one inside
      refine Classical.byContradiction fun enough => ?_
      exact noPulse k ((filtered k).mpr ⟨one, inside, Nat.not_lt.mp enough⟩)
    obtain ⟨all, last⟩ := measure_take seen s.fen.lowMeasure (Nat.le_refl _)
    rw [List.take_length] at all last
    refine ⟨seen.foldl measureTick s.fen.lowMeasure, (if_pos watching).trans ?_, all, fun j lt high low => last j lt high low⟩
    rw [show pulseAt s.fen.lowMeasure (s.btx.lineWith line) = .none from none]
    rfl
  · obtain ⟨one, inside, enough⟩ := (filtered k).mp at_k
    have some : pulseAt s.fen.lowMeasure seen = some k := by
      rw [pulseAt_eq_some]
      refine ⟨⟨one, inside, enough⟩, fun j one lt => ?_⟩
      refine Classical.byContradiction fun already => ?_
      exact first j lt ((filtered j).mpr ⟨one, by omega, Nat.not_lt.mp already⟩)
    refine (if_pos watching).trans ?_
    rw [show pulseAt s.fen.lowMeasure (s.btx.lineWith line) = .some k from some]
    let u := s.setBtx (btxHear s.busRate k (seen.take k) s.btx)
    let resume : Handed := { what := .resume, rate := s.fen.config.rate }
    have begins : btxHand resume u.btx =
        { btxHear s.busRate k seen s.btx with state := .broadcast resume, dbde := true, heard := [] } := by
      refine (if_pos idle).trans ?_
      simp only [u, setBtx_btx, btxHear, ticksOf_take]
      rfl
    have timer : (if u.btx.state = .idle then .some 0 else .none : Option Nat) = .some 0 := if_pos idle
    refine congrArg Host.Outcome.next ((enterWaking_eq .wakePulse u).trans ?_)
    rw [timer, show u.fen.engine = .quiet from watching.1]
    exact congrArg (fun x => offerEngine _ ((u.setBtx x).setFen _)) begins

end Sys2Proof.Machine

namespace Sys2Proof.Machine

/-! ### Frame starts (R32, R33, R78) -/

/-- The line as the jam record has it after some ticks, grain by grain (R68). -/
theorem btxHear_getLsbD (rate : BusRate) (n : Nat) (l : List Level) (x : Btx) {k : Nat} (small : k < 256) :
    (btxHear rate n l x).jamRecord.getLsbD k =
      if k < n * rate.grains then decide (l.getD (n - 1 - k / rate.grains) .high = .low)
      else x.jamRecord.getLsbD (k - n * rate.grains) := by
  refine (record_getLsbD rate.grains rate.grains_pos (ticksOf n l) x.jamRecord k small).trans ?_
  rw [ticksOf_length]
  by_cases given : k < n * rate.grains
  · have tick : k / rate.grains < n := Nat.div_lt_of_lt_mul (by rw [Nat.mul_comm]; exact given)
    have some : 0 < n := Nat.lt_of_le_of_lt (Nat.zero_le _) tick
    rw [if_pos given, if_pos given, ticksOf_getD n _ l (Nat.lt_of_le_of_lt (Nat.sub_le _ _) (Nat.sub_lt some Nat.one_pos))]
  · rw [if_neg given, if_neg given]

/-- FEN as a frame opens (R32). -/
def openedFen (s : State) : Fen :=
  { s.fen with
    frame := s.fen.frame + 1, slot := slotOf (s.fen.frame + 1) s.scm.schedLen, skipCount := 0, timer := some 0,
    startPending := false }

/-- FEN after a jammed frame start, before the third stops the engine (R33). -/
def jammedFen (f : Fen) : Fen := { f with jamCount := f.jamCount + 1, plan := [], planPos := 0, stage := .idle }

theorem frameStart_of_clean {s : State} (clean : s.btx.jammed s.fen.config.rate = false) :
    frameStart s = frameBegun (cleanStart (s.setFen (openedFen s))) := by
  have notJammed : ¬ s.btx.jammed s.fen.config.rate = true := by simp [clean]
  exact congrArg frameBegun (if_neg notJammed)

theorem frameStart_of_jammed {s : State} (jammed : s.btx.jammed s.fen.config.rate = true) :
    frameStart s = frameBegun (jammedStart (s.setFen (openedFen s))) :=
  congrArg frameBegun (if_pos jammed)

theorem jammedStart_of_few {s : State} (few : s.fen.jamCount < 2) :
    jammedStart s = offerFrame (jamEvent s.fen) (s.setFen (jammedFen s.fen)) :=
  if_neg (show ¬ 3 ≤ s.fen.jamCount + 1 by omega)

theorem jammedStart_of_third {s : State} (third : 2 ≤ s.fen.jamCount) :
    jammedStart s =
      offerEngine { new := .stopped, left := s.fen.engine, cause := .jam, frame := s.fen.frame }
        ((offerFrame (jamEvent s.fen) (s.setFen (jammedFen s.fen))).setFen { jammedFen s.fen with
          engine := .stopped, timer := none, settling := 0, startPending := false, judgeDue := false }) :=
  (if_pos (show 3 ≤ s.fen.jamCount + 1 by omega)).trans (enterStopped_eq .jam _)

theorem jammedStart_rep_of_third {s : State} (third : 2 ≤ s.fen.jamCount) :
    (jammedStart s).rep =
      let p := repFrame s.admits (jamEvent s.fen) s.rep
      repEngine (Machine.admits s.link.session.isOpen (ticketCount s.fen) p)
        { new := .stopped, left := s.fen.engine, cause := .jam, frame := s.fen.frame } p := by
  rw [jammedStart_of_third third]
  rfl

theorem cleanStart_eq {s : State} (idle : s.btx.state = .idle) :
    cleanStart s =
      (s.setFen { s.fen with jamCount := 0, plan := planOf s.scm s.fen.slot, planPos := 0, stage := .beacon }).setBtx
        { s.btx with
          state := .broadcast { what := .beacon false s.fen.frame, rate := s.fen.config.rate }, dbde := true, heard := [] } :=
  congrArg (State.setBtx _) (if_pos idle)

theorem slotOf_val (n : Word) {len : Nat} (valid : isSchedLen len = true) : (slotOf n len).val = n.toNat % len := by
  have range : 0 < len ∧ len ≤ 32 := by
    simp only [isSchedLen, Bool.or_eq_true, beq_iff_eq] at valid
    omega
  have small : n.toNat % len < 32 := Nat.lt_of_lt_of_le (Nat.mod_lt _ range.1) range.2
  exact Nat.mod_eq_of_lt small

/-- The FRAME-EVENT of a jammed frame start, by the frame that opens (R33, R45). -/
def jamSummary (s : State) : FrameSummary :=
  { slot := slotOf (s.fen.frame + 1) s.scm.schedLen, frame := s.fen.frame + 1, skipped := 0, jams := 1, frames := 1 }

theorem frameStart_rep_of_few {s : State} (jammed : s.btx.jammed s.fen.config.rate = true) (few : s.fen.jamCount < 2) :
    (frameStart s).rep = repFrame s.admits (jamSummary s) s.rep := by
  rw [frameStart_of_jammed jammed, jammedStart_of_few (s := s.setFen (openedFen s)) few]
  rfl

theorem frameStart_rep_of_third {s : State} (jammed : s.btx.jammed s.fen.config.rate = true)
    (third : 2 ≤ s.fen.jamCount) :
    (frameStart s).rep =
      let p := repFrame s.admits (jamSummary s) s.rep
      repEngine (Machine.admits s.link.session.isOpen (ticketCount s.fen) p)
        { new := .stopped, left := s.fen.engine, cause := .jam, frame := s.fen.frame + 1 } p := by
  rw [frameStart_of_jammed jammed]
  exact jammedStart_rep_of_third (s := s.setFen (openedFen s)) third

/-- FEN after a frame start, by its kind (R32, R33). -/
theorem frameStart_fen_of_few {s : State} (jammed : s.btx.jammed s.fen.config.rate = true) (few : s.fen.jamCount < 2) :
    (frameStart s).fen = jammedFen (openedFen s) := by
  rw [frameStart_of_jammed jammed, jammedStart_of_few (s := s.setFen (openedFen s)) few]
  rfl

theorem frameStart_fen_of_third {s : State} (jammed : s.btx.jammed s.fen.config.rate = true)
    (third : 2 ≤ s.fen.jamCount) :
    (frameStart s).fen = { jammedFen (openedFen s) with
      engine := .stopped, timer := none, settling := 0, startPending := false, judgeDue := false } := by
  rw [frameStart_of_jammed jammed, jammedStart_of_third (s := s.setFen (openedFen s)) third]
  rfl

theorem frameStart_btx_of_jammed {s : State} (jammed : s.btx.jammed s.fen.config.rate = true) :
    (frameStart s).btx = s.btx := by
  rw [frameStart_of_jammed jammed]
  simp

theorem frameStart_of_idle {s : State} (clean : s.btx.jammed s.fen.config.rate = false) (idle : s.btx.state = .idle) :
    (frameStart s).fen = { openedFen s with
        jamCount := 0, plan := planOf s.scm (openedFen s).slot, planPos := 0, stage := .beacon }
      ∧ (frameStart s).rep = s.rep
      ∧ (frameStart s).btx = { s.btx with
          state := .broadcast { what := .beacon false (s.fen.frame + 1), rate := s.fen.config.rate }, dbde := true,
          heard := [] } := by
  rw [frameStart_of_clean clean, cleanStart_eq (s := s.setFen (openedFen s)) idle]
  exact ⟨rfl, rfl, rfl⟩

/-- DRM after a frame start of either kind (R78). -/
theorem frameStart_drm (s : State) : (frameStart s).drm = { s.drm with drops := tmap dropFrameBegun s.drm.drops } := by
  cases jammed : s.btx.jammed s.fen.config.rate with
  | false => rw [frameStart_of_clean jammed]; simp [frameBegun]
  | true => rw [frameStart_of_jammed jammed]; simp [frameBegun]

theorem dropFrameBegun_drops (m : Drm) (d : Fin Config.dropCount) :
    tget (tmap dropFrameBegun m.drops) d =
      if (tget m.drops d).state = .quarantined then { tget m.drops d with due := (tget m.drops d).due - 1 }
      else tget m.drops d := tget_tmap _ _ _

/-- The rates of R23 with their grains. -/
theorem grains_of_mem {rate : BusRate} {per : Nat}
    (mem : (rate, per) ∈ ([(.k250, 8), (.k500, 4), (.m1, 2), (.m2, 1)] : List (BusRate × Nat))) : per = rate.grains := by
  simp only [List.mem_cons, Prod.mk.injEq, List.not_mem_nil, or_false] at mem
  rcases mem with ⟨rfl, rfl⟩ | ⟨rfl, rfl⟩ | ⟨rfl, rfl⟩ | ⟨rfl, rfl⟩ <;> rfl

theorem busRate_eq (s : State) :
    s.busRate = match s.btx.state with
      | .broadcast b | .gap (.broadcast b) => b.rate
      | .idle | .request | .wait | .answer | .gap (.attempt _) => s.fen.config.rate := by
  unfold State.busRate <;> rfl

/-- Settles O38: the jam record bit by bit, then the clean and the jammed frame start. -/
theorem frameStartBeginsAFrame : Obligations.FrameStartBeginsAFrame := by
  unfold Obligations.FrameStartBeginsAFrame
  intro grains
  refine ⟨fun rate per mem n l x => ⟨rfl, fun k small => ?_⟩, busRate_eq, fun line s => ?_⟩
  · rw [grains_of_mem mem]
    exact btxHear_getLsbD rate n l x small
  · intro falls seen heard
    have can : falls ↔ (boundaryFalls s = true ∧ s.fen.engine = .running ∧ s.fen.quietPending = false) := by
      rw [boundaryFalls_iff]
      simp only [falls, and_assoc]
    refine ⟨fun cannot => if_neg (mt can.mpr cannot), fun atBoundary valid per mem => ?_⟩
    intro n
    have idle : s.btx.state = .idle := atBoundary.2.2.1
    have running : s.fen.engine = .running := atBoundary.2.2.2.2.2.1
    let h := hearAll line s
    have jam : h.btx.jammed h.fen.config.rate = true ↔ ∃ k, k < 32 * per ∧ heard.jamRecord.getLsbD k = true := by
      rw [grains_of_mem mem]
      exact jammed_iff heard s.fen.config.rate
    have slot : (slotOf (h.fen.frame + 1) h.scm.schedLen).val = n.toNat % s.scm.schedLen := slotOf_val n valid
    have link : h.link = s.link := rfl
    have tickets : ticketCount h.fen = ticketCount s.fen := rfl
    have admits : h.admits = s.admits := rfl
    refine ⟨frameStart h, if_pos (can.mp atBoundary), ?_⟩
    rw [frameStart_link, frameStart_scm, frameStart_rst, frameStart_drm]
    cases jammed : h.btx.jammed h.fen.config.rate with
    | false =>
      have noJam : ¬ ∃ k, k < 32 * per ∧ heard.jamRecord.getLsbD k = true := by simp [← jam, jammed]
      obtain ⟨fen, rep, btx⟩ := frameStart_of_idle jammed (s := h) idle
      rw [fen, rep, btx]
      exact ⟨rfl, slot, rfl, rfl, rfl, rfl, rfl, rfl, rfl, rfl, rfl, dropFrameBegun_drops s.drm,
        fun _ => ⟨running, rfl, rfl, rfl, rfl, rfl, rfl, rfl⟩, fun jam => absurd jam noJam⟩
    | true =>
      have noClean : ¬ ∀ k, k < 32 * per → heard.jamRecord.getLsbD k = false := by
        obtain ⟨k, lt, low⟩ := jam.mp jammed
        exact fun clean => absurd (clean k lt) (by simp [low])
      rw [frameStart_btx_of_jammed jammed]
      rcases Nat.lt_or_ge s.fen.jamCount 2 with few | third
      · rw [frameStart_fen_of_few jammed few, frameStart_rep_of_few jammed few, admits]
        exact ⟨rfl, slot, rfl, rfl, rfl, rfl, rfl, rfl, rfl, rfl, rfl, dropFrameBegun_drops s.drm,
          fun clean => absurd clean noClean, fun _ => ⟨rfl, rfl, rfl, fun _ => ⟨running, rfl, rfl⟩,
            fun third => absurd few (Nat.not_lt.mpr third)⟩⟩
      · rw [frameStart_fen_of_third jammed third, frameStart_rep_of_third jammed third, admits, tickets, link,
          show h.fen.engine = .running from running]
        exact ⟨rfl, slot, rfl, rfl, rfl, rfl, rfl, rfl, rfl, rfl, rfl, dropFrameBegun_drops s.drm,
          fun clean => absurd clean noClean, fun _ => ⟨rfl, rfl, rfl, fun few => absurd few (Nat.not_lt.mpr third),
            fun _ => ⟨rfl, rfl, rfl⟩⟩⟩

end Sys2Proof.Machine

namespace Sys2Proof.Machine

/-! ### Broadcasts (R51, R54 to R56) -/

theorem beaconByte_eq (settling : Bool) (n : Word) :
    beaconByte settling n = BitVec.ofNat 8 (n.toNat % 128 + if settling then 128 else 0) := by
  cases settling with
  | false => simp [beaconByte, flagByte, byteOf]
  | true =>
    rw [BitVec.ofNat_add]
    rfl

theorem busBytes_of_broadcast {x : Btx} {b : Handed} (state : x.state = .broadcast b) :
    busBytes x = broadcastFrame b.what := by
  simp only [busBytes, state]

theorem busBytes_of_released {x : Btx} (request : x.state ≠ .request) (broadcast : ∀ b, x.state ≠ .broadcast b) :
    busBytes x = [] := by
  cases state : x.state with
  | request => exact absurd state request
  | broadcast b => exact absurd state (broadcast b)
  | _ => simp only [busBytes, state]

/-- The state as the gap of a broadcast ends, before anything goes on (R51, R54). -/
def gapEnded (b : Handed) (line : List Level) (s : State) : State :=
  (s.setFen { s.fen with timer := s.fen.timer.map (· + 4 * 8) }).setBtx
    { btxHear b.rate (4 * 8) (s.btx.heard ++ line) s.btx with
      state := .idle, heard := reTick b.rate s.fen.config.rate ((s.btx.heard ++ line).drop (4 * 8)) }

theorem exec_broadcastGapEnd {b : Handed} {s : State} (line : List Level) (gap : s.btx.state = .gap (.broadcast b)) :
    exec (.broadcastGapEnd line) s = .next (afterBroadcast b.what (gapEnded b line s)) := by
  have rate : s.busRate = b.rate := by simp only [State.busRate, gap]
  have ended : gapEnds b.rate (hear (Config.ticks * Config.gapTime) line s) = gapEnded b line s := by
    rw [hear_eq, rate]
    rfl
  refine (exec_event rfl s).trans (congrArg _ ?_)
  simp only [eventEffect, gap, ended]

theorem afterBroadcast_of_waiting {s : State} {b : Handed} {rest : List Handed} (ended : Broadcast)
    (waiting : s.btx.waiting = b :: rest) :
    afterBroadcast ended s =
      (s.setFen (if b.what = .resume ∧ rest = [] ∧ s.fen.engine = .waking ∧ s.fen.resetPending = false then
          { s.fen with timer := some 0 } else s.fen)).setBtx
        { s.btx with state := .broadcast b, dbde := true, heard := [], waiting := rest } := by
  simp only [afterBroadcast, waiting]
  split <;> rfl

theorem afterBroadcast_of_free {s : State} (ended : Broadcast) (waiting : s.btx.waiting = [])
    (notPending : s.fen.resetPending = false) :
    afterBroadcast ended s =
      match s.fen.engine, ended with
      | .quiet, .quiet => s.setFen { s.fen with watching := true, lowMeasure := 0 }
      | .running, _ =>
        if s.fen.startPending then
          if s.fen.quietPending then quietBoundary s else frameStart s
        else if s.fen.stage = .beacon then continueWalk s
        else s
      | _, _ => s := by
  simp only [afterBroadcast, waiting, notPending, Bool.false_eq_true, if_false] <;> rfl

theorem continueWalk_of_beacon {s : State} (stage : s.fen.stage = .beacon) :
    continueWalk s = walkPeriodic (s.fen.plan.drop s.fen.planPos) (s.setFen { s.fen with stage := .periodic }) := by
  simp only [continueWalk, stage]

/-- Settles O41: the bytes driven, the rates, and the two ends by the state of BTX and FEN. -/
theorem broadcastsEndAndTheFrameGoesOn : Obligations.BroadcastsEndAndTheFrameGoesOn := by
  refine ⟨fun b x state => ?_, fun x => busBytes_of_released, rfl,
    fun old new line k => ⟨reTick_self old line, reTick_getD old new line k⟩,
    fun b line s => ⟨fun state => ?_, fun gap => ?_⟩⟩
  · rw [busBytes_of_broadcast state]
    cases what : b.what with
    | beacon settling n => exact ⟨by simp only [← beaconByte_eq]; rfl, rfl⟩
    | _ => exact ⟨rfl, rfl⟩
  · refine (exec_event rfl s).trans (congrArg _ ?_)
    simp only [eventEffect, state]
    rfl
  · intro fen seen u
    have ends : exec (.broadcastGapEnd line) s = .next (afterBroadcast b.what u) := exec_broadcastGapEnd line gap
    refine ⟨fun b' rest waiting => ?_, fun waiting notPending => ?_⟩
    · intro starts
      exact ends.trans (congrArg _ (afterBroadcast_of_waiting (s := u) b.what waiting))
    have free := afterBroadcast_of_free (s := u) b.what waiting notPending
    rw [ends, free]
    refine ⟨fun quiet engine => ?_, fun running start noQuiet => ?_, fun running noStart stage => ?_,
      fun running start quiet => ?_, fun still => ?_⟩
    · rw [show u.fen.engine = .quiet from engine, quiet]
      rfl
    · rw [show u.fen.engine = .running from running]
      simp only [show u.fen.startPending = true from start, show u.fen.quietPending = false from noQuiet, if_true,
        Bool.false_eq_true, if_false]
    · rw [show u.fen.engine = .running from running]
      simp only [show u.fen.startPending = false from noStart, show u.fen.stage = .beacon from stage,
        Bool.false_eq_true, if_false, if_true]
      rw [continueWalk_of_beacon (s := u) stage]
      rfl
    · rw [show u.fen.engine = .running from running]
      simp only [show u.fen.startPending = true from start, show u.fen.quietPending = true from quiet, if_true]
    · rcases still with stopped | waking
      · rw [show u.fen.engine = .stopped from stopped]
      · rw [show u.fen.engine = .waking from waking]

end Sys2Proof.Machine

namespace Sys2Proof.Machine

/-! ### A request and the start of its answer (R49 to R52, R58) -/

theorem busBytes_of_request {x : Btx} {c : Capture} (state : x.state = .request) (capture : x.capture = some c) :
    busBytes x = requestFrame c := by
  simp only [busBytes, state, capture]

theorem flatMap_busWord_length (values : List Word) : (values.flatMap busWord).length = 2 * values.length := by
  induction values with
  | nil => rfl
  | cons v rest ih =>
    rw [List.flatMap_cons, List.length_append, ih, List.length_cons]
    simp only [busWord, List.length_cons, List.length_nil]
    omega

/-- A start bit at a tick of a line that was high before it (R49). -/
theorem startsAt_high_iff (line : List Level) (n : Nat) :
    StartsAt .high line n ↔ (n = 0 ∨ line.getD (n - 1) .high = .high)
      ∧ line.getD n .high = .low ∧ line.getD (n + 1) .high = .low ∧ line.getD (n + 2) .high = .low := by
  unfold StartsAt
  cases n with
  | zero => simp
  | succ n => simp

/-- ANSWER_START_BIT and ANSWER_DEADLINE in WAIT, by the start that is heard. -/
theorem exec_answerStartBit {s : State} {line : List Level} {n : Nat} (wait : s.btx.state = .wait)
    (starts : answerStart (s.btx.heard ++ line) = some n) :
    exec (.answerStartBit line) s = .next
      ((s.setFen { s.fen with timer := s.fen.timer.map (· + n) }).setBtx
        { btxHear s.busRate n (s.btx.heard ++ line) s.btx with
          state := .answer, rx := { startAt := some n, bytes := [], endAt := none } }) := by
  have rate : s.busRate = s.fen.config.rate := by simp only [State.busRate, wait]
  show execAnswerStartBit line s = _
  simp only [execAnswerStartBit, wait, Btx.lineWith, starts]
  rw [hear_eq, rate]
  rfl

theorem exec_answerDeadline {s : State} {line : List Level} (wait : s.btx.state = .wait)
    (silent : answerStart (s.btx.heard ++ line) = none) :
    exec (.answerDeadline line) s = .next
      ((s.setFen { s.fen with timer := s.fen.timer.map (· + 4 * 24) }).setBtx
        { btxHear s.busRate (4 * 24) (s.btx.heard ++ line) s.btx with state := .gap (.attempt (.error .noAnswer)) }) := by
  have rate : s.busRate = s.fen.config.rate := by simp only [State.busRate, wait]
  show execAnswerDeadline line s = _
  simp only [execAnswerDeadline, wait, Btx.lineWith, silent]
  rw [hear_eq, rate]
  rfl

theorem exec_requestFrameEnd {s : State} {c : Capture} (request : s.btx.state = .request)
    (capture : s.btx.capture = some c) :
    exec .requestFrameEnd s = .next
      ((s.setFen { s.fen with timer := s.fen.timer.map (· + 4 * (10 * (8 + 2 * c.outCount))) }).setBtx
        { s.btx with
          state := .wait, dbde := false, rx := { startAt := none, bytes := [], endAt := none }, jamRecord := 0 }) := by
  let x : Btx := { s.btx with state := .wait, dbde := false, rx := .empty }
  have idle : (btxDrive (s.setBtx x).busRate (Config.ticks * requestTime c.outCount) x).jamRecord = 0 := by
    refine btxDrive_record _ _ x ?_
    have long : 256 ≤ Config.ticks * requestTime c.outCount := by
      simp only [Config.ticks, requestTime]
      omega
    exact Nat.le_trans long (Nat.le_mul_of_pos_right _ (s.setBtx x).busRate.grains_pos)
  have takes : exec .requestFrameEnd s = .next (drive (Config.ticks * requestTime c.outCount) (s.setBtx x)) := by
    show execRequestFrameEnd s = _
    unfold execRequestFrameEnd
    split
    · rename_i c' _ capture'
      rw [Option.some.inj (capture'.symm.trans capture)]
    · rename_i others
      exact absurd capture (others c request)
  rw [takes, drive]
  exact congrArg (fun r =>
    Host.Outcome.next (passTime (Config.ticks * requestTime c.outCount) (s.setBtx { x with jamRecord := r }))) idle

/-- Settles O42: the bytes driven, the check, and the three commands. -/
theorem requestIsSentAndTheAnswerAwaited : Obligations.RequestIsSentAndTheAnswerAwaited := by
  refine ⟨fun c x state capture => ?_, fun bytes => crc_eq _ _ _,
    fun line c s => ⟨fun state capture => ?_, fun wait => ?_, fun other => ⟨?_, ?_⟩⟩⟩
  · rw [busBytes_of_request state capture]
    refine ⟨?_, fun outputs => ?_⟩
    · obtain ⟨cmd, drop, first, inCount, outCount, outputs⟩ := c
      cases cmd <;> rfl
    · rw [requestFrame, busFrame, List.length_append, List.length_cons, List.length_append, flatMap_busWord_length, outputs]
      simp only [busWord, List.length_cons, List.length_nil]
      omega
  · exact exec_requestFrameEnd state capture
  · intro seen level start
    have same : ∀ n, StartsAt .high seen n ↔ start n := startsAt_high_iff seen
    refine ⟨fun n le at_n first => ?_, fun silent => ?_⟩
    · have starts : answerStart (s.btx.heard ++ line) = some n :=
        (answerStart_eq_some seen n).mpr ⟨le, (same n).mpr at_n, fun m lt => mt (same m).mp (first m lt)⟩
      refine ⟨exec_answerStartBit wait starts, ?_⟩
      show execAnswerDeadline line s = _
      simp only [execAnswerDeadline, wait, Btx.lineWith, starts]
    · have none : answerStart (s.btx.heard ++ line) = none :=
        (answerStart_eq_none seen).mpr fun n le => mt (same n).mp (silent n le)
      refine ⟨exec_answerDeadline wait none, ?_⟩
      show execAnswerStartBit line s = _
      simp only [execAnswerStartBit, wait, Btx.lineWith, none]
  · show execAnswerStartBit line s = _
    cases state : s.btx.state with
    | wait => exact absurd state other
    | _ => simp only [execAnswerStartBit, state]
  · show execAnswerDeadline line s = _
    cases state : s.btx.state with
    | wait => exact absurd state other
    | _ => simp only [execAnswerDeadline, state]

end Sys2Proof.Machine

namespace Sys2Proof.Machine

/-! ### The judgement of items (R36 to R41) -/

theorem isReady_iff (m : Drm) (d : Fin Config.dropCount) :
    isReady m d = true ↔ (tget m.drops d).state = .online ∨ (tget m.drops d).state = .failing := ready_iff _

theorem isReady_eq_false {m : Drm} {d : Fin Config.dropCount} (online : (tget m.drops d).state ≠ .online)
    (failing : (tget m.drops d).state ≠ .failing) : isReady m d = false :=
  Bool.eq_false_iff.mpr (mt (isReady_iff m d).mp (by simp [online, failing]))

/-- The step of the walk over one pair, whose handle is stale or not (R36). -/
theorem walkPeriodic_of_stale {p : PlanPair} {s : State} (rest : List PlanPair) (stale : pairBody s.scm p = none) :
    walkPeriodic (p :: rest) s = walkPeriodic rest (s.setFen { s.fen with planPos := s.fen.planPos + 1 }) := by
  rw [walkPeriodic]
  simp only [setFen_scm, stale]

theorem walkPeriodic_of_pair {p : PlanPair} {s : State} {b : EntryBody} (rest : List PlanPair)
    (pair : pairBody s.scm p = some b) :
    walkPeriodic (p :: rest) s =
      let u := s.setFen { s.fen with planPos := s.fen.planPos + 1 }
      if isReady s.drm b.trans.drop = false then walkPeriodic rest (putBody p.index (bodyNotReady b) u)
      else if remaining s.fen < b.trans.cost then
        walkPeriodic rest
          (putBody p.index (bodySkipped b) (u.setFen { u.fen with skipCount := s.fen.skipCount + 1 }))
      else startItem (.periodic p) b.trans.retries (captureOf b.trans b.outputs) u := by
  rw [walkPeriodic]
  simp only [setFen_scm, pair, Bool.not_eq_true']
  rfl

theorem serveAdHoc_of_guard {s : State} (h : AdHoc) (rest : List AdHoc) (guard : guardStarted s.fen = true) :
    serveAdHoc (h :: rest) s = s := by
  rw [serveAdHoc, if_pos guard]

theorem serveAdHoc_of_time {s : State} (h : AdHoc) (rest : List AdHoc) (time : guardStarted s.fen = false) :
    serveAdHoc (h :: rest) s =
      if h.force = false ∧ isReady s.drm h.trans.drop = false then serveAdHoc rest (adHocNotReady h rest s)
      else if h.trans.cost ≤ remaining s.fen then
        startItem (.adHoc h.ticket true) h.trans.retries (captureOf h.trans h.outputs)
          (s.setFen { s.fen with queue := rest })
      else s := by
  rw [serveAdHoc, if_neg (by simp [time])]
  simp only [Bool.and_eq_true, Bool.not_eq_true']

theorem probeStage_of_none {s : State} (none : candidate s.drm = none) :
    probeStage s = serveAdHoc s.fen.queue (s.setFen { s.fen with stage := .adHoc }) := by
  unfold probeStage
  simp only [setFen_drm, none]
  rfl

theorem probeStage_of_some {s : State} {d : Fin Config.dropCount} (some : candidate s.drm = some d) :
    probeStage s =
      if 202 ≤ remaining s.fen then startItem .probe 0 (probeCapture d) (probeBegun d (s.setFen { s.fen with stage := .probe }))
      else serveAdHoc s.fen.queue (s.setFen { s.fen with stage := .adHoc }) := by
  unfold probeStage
  simp only [setFen_drm, some]
  rfl

/-- Settles O47: one step of each walk, by the branch it takes. -/
theorem itemsAreJudged : Obligations.ItemsAreJudged := by
  refine ⟨fun p rest s => ?_, fun h rest s now timer late => ?_, fun h rest s now timer early => ?_, fun s => ?_, fun s => ?_⟩
  · intro u e put
    refine ⟨fun stale => walkPeriodic_of_stale rest (pairBody_eq_none stale), fun b body gen => ?_⟩
    intro state cost
    have steps := walkPeriodic_of_pair rest (pairBody_eq_some body gen)
    refine ⟨fun online failing => ?_, fun ready => ⟨fun short => ?_, fun fits => ?_⟩⟩
    · exact steps.trans (if_pos (isReady_eq_false online failing))
    · have notReady : ¬ isReady s.drm b.trans.drop = false := by simp [(isReady_iff _ _).mpr ready]
      exact steps.trans ((if_neg notReady).trans (if_pos short))
    · have notReady : ¬ isReady s.drm b.trans.drop = false := by simp [(isReady_iff _ _).mpr ready]
      refine steps.trans ((if_neg notReady).trans ((if_neg (Nat.not_lt.mpr fits)).trans ?_))
      rfl
  · refine serveAdHoc_of_guard h rest ?_
    simp only [guardStarted, timer]
    exact decide_eq_true late
  · have time : guardStarted s.fen = false := by
      simp only [guardStarted, timer]
      exact decide_eq_false (Nat.not_le.mpr early)
    have served := serveAdHoc_of_time h rest time
    intro state ready cost u
    refine ⟨fun unforced notReady => ?_, fun goes => ?_⟩
    · obtain ⟨online, failing⟩ := not_or.mp notReady
      exact served.trans (if_pos ⟨unforced, isReady_eq_false online failing⟩)
    · have examined : ¬ (h.force = false ∧ isReady s.drm h.trans.drop = false) := by
        rintro ⟨unforced, notReady⟩
        rcases goes with forced | ready
        · exact absurd forced (by simp [unforced])
        · exact absurd ((isReady_iff _ _).mpr ready) (by simp [notReady])
      refine ⟨fun fits => ?_, fun short => ?_⟩
      · exact served.trans ((if_neg examined).trans (if_pos fits))
      · exact served.trans ((if_neg examined).trans (if_neg (Nat.not_le.mpr short)))
  · intro event
    refine ⟨fun none => ?_, fun some => ?_⟩
    · exact congrArg probeStage (if_neg (by simp [none]))
    · exact congrArg probeStage (if_pos some)
  · intro named steps
    have same : ∀ d, named d ↔ isCandidate (tget s.drm.drops d) = true := fun d => (isCandidate_iff _).symm
    refine ⟨fun nothing => ?_, fun d isNamed first fits => ?_⟩
    · cases found : candidate s.drm with
      | none => exact probeStage_of_none found
      | some d =>
        rcases nothing with nobody | short
        · exact absurd ((same d).mpr ((candidate_eq_some _ _).mp found).1) (nobody d)
        · exact (probeStage_of_some found).trans (if_neg (Nat.not_le.mpr short))
    · have found : candidate s.drm = some d :=
        (candidate_eq_some _ _).mpr ⟨(same d).mp isNamed, fun e other => first e ((same e).mpr other)⟩
      exact (probeStage_of_some found).trans (if_pos fits)

end Sys2Proof.Machine

namespace Sys2Proof.Machine

/-! ### The end of an attempt (R42, R62) -/

/-- The state with BTX idle after the gap of an attempt (R62). -/
def attemptIdle (line : List Level) (s : State) : State :=
  (s.setFen { s.fen with timer := s.fen.timer.map (· + 4 * 8) }).setBtx
    { btxHear s.busRate (4 * 8) (s.btx.heard ++ line) s.btx with state := .idle }

theorem exec_attemptEnd {it : Item} {c : Capture} {r : AttemptResult} {s : State} (line : List Level) (held : Bool)
    (gap : s.btx.state = .gap (.attempt r)) (item : s.fen.item = some it) (capture : s.btx.capture = some c) :
    exec (.attemptEnd line held) s = .next (attemptEnded it c r held (attemptIdle line s)) := by
  have rate : s.busRate = s.fen.config.rate := by simp only [State.busRate, gap]
  have idle : hear (Config.ticks * Config.gapTime) line (s.setBtx { s.btx with state := .idle }) = attemptIdle line s := by
    rw [hear_eq, attemptIdle, rate]
    rfl
  show execAttemptEnd line held s = _
  rw [← idle]
  unfold execAttemptEnd
  split
  · rename_i r' it' c' gap' item' capture'
    obtain rfl := GapOf.attempt.inj (BtxState.gap.inj (gap'.symm.trans gap))
    obtain rfl := Option.some.inj (item'.symm.trans item)
    obtain rfl := Option.some.inj (capture'.symm.trans capture)
    rfl
  · rename_i noItem
    exact absurd (noItem.symm.trans item) (by simp)
  · rename_i others
    exact absurd capture (others r it c gap item)

/-- The worst case of another attempt in ticks, the guard start not reached (R25, R42). -/
theorem fits_iff (c : Capture) {f : Fen} {t : Nat} (timer : f.timer = some t) :
    c.cost ≤ remaining f ↔ 4 * (162 + 20 * (c.outCount + c.inCount)) + t ≤ 4 * f.config.guardStart := by
  simp only [remaining, timer, Capture.cost, attemptCost, Config.ticks]
  omega

theorem continueWalk_of_periodic {s : State} (stage : s.fen.stage = .periodic) :
    continueWalk s = walkPeriodic (s.fen.plan.drop s.fen.planPos) s := by
  have same : { s.fen with stage := .periodic } = s.fen := by rw [← stage]
  simp only [continueWalk, stage, same]
  rfl

theorem continueWalk_of_periodicEnded {s : State} (stage : s.fen.stage = .periodicEnded) :
    continueWalk s = probeStage s := by
  simp only [continueWalk, stage]

theorem continueWalk_of_probe {s : State} (stage : s.fen.stage = .probe ∨ s.fen.stage = .adHoc) :
    continueWalk s = serveAdHoc s.fen.queue (s.setFen { s.fen with stage := .adHoc }) := by
  rcases stage with probe | adHoc
  · simp only [continueWalk, probe, adHocStage]
  · simp only [continueWalk, adHoc, adHocStage]

theorem raiseSkips_eq (s : State) : raiseSkips s = if 0 < s.fen.skipCount then offerFrame (skipEvent s.fen) s else s := rfl

/-- The judgement left due, the periodic stage going on or ended (R35, R45). -/
theorem leaveJudgement_of_goesOn {s : State} (goesOn : ¬ (s.fen.stage = .periodic ∧ s.fen.plan.drop s.fen.planPos = [])) :
    leaveJudgement s = s.setFen { s.fen with judgeDue := true } := by
  rw [List.drop_eq_nil_iff] at goesOn
  exact congrArg (fun t : State => t.setFen { t.fen with judgeDue := true }) (if_neg goesOn)

theorem leaveJudgement_of_ended {s : State} (ended : s.fen.stage = .periodic ∧ s.fen.plan.drop s.fen.planPos = []) :
    leaveJudgement s =
      (if 0 < s.fen.skipCount then offerFrame (skipEvent s.fen) s else s).setFen
        { s.fen with stage := .periodicEnded, judgeDue := true } := by
  rw [List.drop_eq_nil_iff] at ended
  refine (congrArg (fun t : State => t.setFen { t.fen with judgeDue := true }) (if_pos ended)).trans ?_
  rw [endPeriodic, raiseSkips_eq]
  by_cases skips : 0 < s.fen.skipCount
  · simp only [skips, if_true]
    rfl
  · simp only [skips, if_false]
    rfl

/-- The end of HALTING (R28, R142). -/
theorem haltingEnds_eq (s : State) :
    haltingEnds s =
      let stopped := answerDeferred (fun r => r == .halt) .ok []
        (offerEngine { new := .stopped, left := s.fen.engine, cause := s.fen.haltCause, frame := s.fen.frame }
          ((if s.fen.stage = .periodic ∧ 0 < s.fen.skipCount then offerFrame (skipEvent s.fen) s else s).setFen
            { s.fen with
              engine := .stopped, timer := none, plan := [], planPos := 0, stage := .idle, settling := 0,
              startPending := false, judgeDue := false }))
      if s.fen.quietPending then answerDeferred (fun r => r == .quiet) .ok [] (goQuiet s.fen.haltCause stopped)
      else stopped := by
  rw [haltingEnds, enterStopped_eq]
  rfl

/-- An error with attempts and time left is retried from the same capture (R42). -/
theorem attemptEnded_of_retry {it : Item} {c : Capture} {e : AttemptError} {s : State} (held : Bool)
    (again : it.attempts < it.retries + 1 ∧ c.cost ≤ remaining s.fen) :
    attemptEnded it c (.error e) held s =
      (s.setFen { s.fen with item := some { it with attempts := it.attempts + 1, lastError := some e } }).setBtx
        (btxAttempt c s.btx) := if_pos again

theorem attemptEnded_of_end {it : Item} {c : Capture} {r : AttemptResult} {s : State} (held : Bool)
    (ends : ∀ e, r = .error e → ¬ (it.attempts < it.retries + 1 ∧ c.cost ≤ remaining s.fen)) :
    attemptEnded it c r held s = afterItem held (recordItem it c.drop r s) := by
  cases r with
  | valid fault service values => rfl
  | error e => exact if_neg (ends e rfl)

/-- A ticket's item: the drop manager first, then its TICKET-DONE (R99, R101). -/
theorem recordItem_of_ticket {it : Item} {n : Word} (d : Fin Config.dropCount) (r : AttemptResult) (s : State)
    (source : it.source = .adHoc n true) :
    recordItem it d r s =
      offerTicketDone (ticketReport n it r s.fen.frame) (clearItem (dropOutcome d r.success s)) := by
  have frame : (clearItem (dropOutcome d r.success s)).fen.frame = s.fen.frame := by simp [clearItem]
  simp only [recordItem, source, recordAdHoc, if_true, frame]

/-- ATTEMPT_END when no item is in progress: the judgement that is due is made, or left due (R28). -/
theorem exec_attemptEnd_due {s : State} (line : List Level) (held : Bool) (idle : s.btx.state = .idle)
    (item : s.fen.item = none) (due : s.fen.judgeDue = true) :
    exec (.attemptEnd line held) s =
      .next (if held then s else continueWalk (s.setFen { s.fen with judgeDue := false })) := by
  have takes : exec (.attemptEnd line held) s =
      if s.fen.judgeDue ∧ held = false then .next (judgeNext s) else .next s := by
    show execAttemptEnd line held s = _
    simp only [execAttemptEnd, idle, item]
  rw [takes]
  cases held with
  | true => exact if_neg (by simp)
  | false => exact if_pos ⟨due, rfl⟩

/-- Settles O45: the retry, the end of the item by its source and by the state of the engine, the judgement due. -/
theorem attemptEndDecidesTheRetry : Obligations.AttemptEndDecidesTheRetry := by
  refine ⟨fun it c r now line held s gap item capture timer => ?_, fun line s idle item due => ?_,
    fun tag s turn running item due noQuiet => ?_⟩
  · intro seen fen u fits used
    have idle : attemptIdle line s = u := by
      unfold attemptIdle
      rw [timer]
      rfl
    have ends : exec (.attemptEnd line held) s = .next (attemptEnded it c r held u) :=
      (exec_attemptEnd line held gap item capture).trans (by rw [idle])
    have again : (it.attempts < it.retries + 1 ∧ c.cost ≤ remaining u.fen) ↔ ¬ used ∧ fits :=
      and_congr Nat.not_le.symm (fits_iff c (f := u.fen) rfl)
    refine ⟨fun e error notUsed fit => ?_, fun ended => ?_⟩
    · subst error
      rw [ends, attemptEnded_of_retry held (again.mpr ⟨notUsed, fit⟩)]
      rfl
    · intro clear ok
      have done : exec (.attemptEnd line held) s = .next (afterItem held (recordItem it c.drop r u)) := by
        rw [ends, attemptEnded_of_end held]
        rintro e rfl more
        obtain ⟨notUsed, fit⟩ := again.mp more
        rcases ended with ⟨e', -, nomore⟩ | ⟨f, v, x, valid⟩
        · exact nomore.elim notUsed (fun unequal => unequal fit)
        · cases valid
      have success : r.success = ok := success_eq r
      have after : (recordItem it c.drop r u).fen = { fen with item := none } := recordItem_fen it c.drop r u
      refine ⟨recordItem it c.drop r u, fun p source => ?_, fun source => ?_, fun n source => ?_, fun n source => ?_, after, ?_⟩
      · simp only [recordItem, source]
        rfl
      · simp only [recordItem, source]
        rfl
      · simp only [recordItem, source, recordAdHoc, success]
        rfl
      · rw [recordItem_of_ticket c.drop r u source, success]
        cases r <;> rfl
      · rw [done]
        generalize recordItem it c.drop r u = t at after
        have engine : t.fen.engine = s.fen.engine := by rw [after]
        have stage : t.fen.stage = s.fen.stage := by rw [after]
        have plan : t.fen.plan.drop t.fen.planPos = s.fen.plan.drop s.fen.planPos := by rw [after]
        have skips : t.fen.skipCount = s.fen.skipCount := by rw [after]
        have event : skipEvent t.fen =
            { slot := s.fen.slot, frame := s.fen.frame, skipped := s.fen.skipCount, jams := 0, frames := 1 } := by
          rw [after]
          rfl
        refine ⟨fun running goesOn => ?_, fun running left => ?_, fun halting => ?_⟩
        · have walks : afterItem held t = continueWalk t := by
            rw [afterItem, if_neg (by simp [engine, running]), if_pos (engine.trans running), if_neg (by simp [goesOn])]
          rw [walks]
          refine ⟨fun periodic => ?_, fun other => ?_⟩
          · rw [continueWalk_of_periodic (stage.trans periodic), plan]
          · rw [continueWalk_of_probe (by rwa [stage]), show t.fen.queue = s.fen.queue by rw [after]]
        · have leaves : afterItem held t = leaveJudgement t := by
            rw [afterItem, if_neg (by simp [engine, running]), if_pos (engine.trans running), if_pos left]
          rw [leaves]
          intro ended event'
          refine ⟨fun goesOn => ?_, fun final => ?_⟩
          · rw [leaveJudgement_of_goesOn (by rw [stage, plan]; exact goesOn)]
          · rw [leaveJudgement_of_ended (by rw [stage, plan]; exact final), skips, event]
        · have stops : afterItem held t = haltingEnds t := if_pos (engine.trans halting)
          rw [stops, haltingEnds_eq, stage, skips, event, engine, halting, show t.fen.haltCause = s.fen.haltCause by rw [after],
            show t.fen.frame = s.fen.frame by rw [after], show t.fen.quietPending = s.fen.quietPending by rw [after]]
          intro skips' event' stopped
          exact ⟨fun noQuiet => congrArg _ (if_neg (by simp [noQuiet])), fun quiet => congrArg _ (if_pos quiet)⟩
  · have made := fun held => exec_attemptEnd_due line held idle item due
    intro u
    refine ⟨made true, fun periodic => ?_, fun ended => ?_, fun other => ?_⟩
    · exact (made false).trans (congrArg _ (continueWalk_of_periodic (s := u) periodic))
    · exact (made false).trans (congrArg _ (continueWalk_of_periodicEnded (s := u) ended))
    · exact (made false).trans (congrArg _ (continueWalk_of_probe (s := u) other))
  · obtain ⟨-, -, -, -, stops, -⟩ := haltStopsTheEngine tag s turn
    obtain ⟨answers, -⟩ := stops running item
    refine ⟨_, answers noQuiet, rfl, item, rfl, rfl, rfl, ?_, ?_⟩
    · show (ite _ _ _ : State).scm = s.scm
      split <;> rfl
    · show (ite _ _ _ : State).btx = s.btx
      split <;> rfl

end Sys2Proof.Machine

namespace Sys2Proof.Machine

/-! ### What the receiver makes of a line (R49, R58) -/

/-- Four ticks of a byte, whatever their levels: the third is sampled. -/
theorem hearAnswer_bitTicks (limit k : Nat) (a b c d : Level) (rest : List Level) (now : Nat) (s : List Level)
    (bytes : List (Byte × Bool)) (e : Nat) (hk : k < 9) (hn : now + 4 ≤ limit) :
    hearAnswer limit (a :: b :: c :: d :: rest)
        { now := now, listening := .byte (4 * k) s, bytes := bytes, lastEnd := e } =
      hearAnswer limit rest
        { now := now + 4, listening := .byte (4 * (k + 1)) (s ++ [c]), bytes := bytes, lastEnd := e } := by
  have m0 : ¬ (4 * k) % 4 = 2 := by omega
  have m1 : ¬ (4 * k + 1) % 4 = 2 := by omega
  have m2 : (4 * k + 1 + 1) % 4 = 2 := by omega
  have m3 : ¬ (4 * k + 1 + 1 + 1) % 4 = 2 := by omega
  rw [hearAnswer_tick _ _ _ _ rfl (by dsimp only; omega), hearTick_byte _ _ _ _ _ _ (by omega), if_neg m0,
    hearAnswer_tick _ _ _ _ rfl (by dsimp only; omega), hearTick_byte _ _ _ _ _ _ (by omega), if_neg m1,
    hearAnswer_tick _ _ _ _ rfl (by dsimp only; omega), hearTick_byte _ _ _ _ _ _ (by omega), if_pos m2,
    hearAnswer_tick _ _ _ _ rfl (by dsimp only; omega), hearTick_byte _ _ _ _ _ _ (by omega), if_neg m3]
  rfl

/-- The levels at the middles of some bit-times. -/
def middles (n : Nat) (line : List Level) : List Level := (List.range n).map fun j => line.getD (4 * j + 2) .high

theorem middles_succ (n : Nat) (a b c d : Level) (line : List Level) :
    middles (n + 1) (a :: b :: c :: d :: line) = c :: middles n line := by
  simp only [middles, List.range_succ_eq_map, List.map_cons, List.map_map]
  rfl

/-- Some bits of a byte. -/
theorem hearAnswer_bits (limit : Nat) (rest : List Level) (bytes : List (Byte × Bool)) (e n : Nat) (line : List Level)
    (k now : Nat) (s : List Level) (length : line.length = 4 * n) (hk : k + n ≤ 9) (hn : now + 4 * n ≤ limit) :
    hearAnswer limit (line ++ rest) { now := now, listening := .byte (4 * k) s, bytes := bytes, lastEnd := e } =
      hearAnswer limit rest
        { now := now + 4 * n, listening := .byte (4 * (k + n)) (s ++ middles n line), bytes := bytes, lastEnd := e } := by
  induction n generalizing line k now s with
  | zero =>
    rw [List.eq_nil_of_length_eq_zero length]
    simp [middles]
  | succ n ih =>
    match line, length with
    | a :: b :: c :: d :: line, length =>
      have shorter : line.length = 4 * n := by
        simp only [List.length_cons] at length
        omega
      refine (hearAnswer_bitTicks limit k a b c d (line ++ rest) now s bytes e (by omega) (by omega)).trans ?_
      rw [ih line (k + 1) (now + 4) (s ++ [c]) shorter (by omega) (by omega), middles_succ, List.append_assoc]
      have time : now + 4 + 4 * n = now + 4 * (n + 1) := by omega
      have age : k + 1 + n = k + (n + 1) := by omega
      rw [time, age]
      rfl

/-- The stop bit, whatever its levels. -/
theorem hearAnswer_stopTicks (limit : Nat) (a b c d : Level) (rest : List Level) (now : Nat) (s : List Level)
    (bytes : List (Byte × Bool)) (e : Nat) (hn : now + 4 ≤ limit) :
    hearAnswer limit (a :: b :: c :: d :: rest)
        { now := now, listening := .byte 36 s, bytes := bytes, lastEnd := e } =
      hearAnswer limit rest
        { now := now + 4, listening := if d = .high then .idle 0 0 else .held,
          bytes := bytes ++ [sampledByte (s ++ [c])], lastEnd := now + 4 } := by
  rw [hearAnswer_tick _ _ _ _ rfl (by dsimp only; omega), hearTick_byte _ _ _ _ _ _ (by omega), if_neg (by omega),
    hearAnswer_tick _ _ _ _ rfl (by dsimp only; omega), hearTick_byte _ _ _ _ _ _ (by omega), if_neg (by omega),
    hearAnswer_tick _ _ _ _ rfl (by dsimp only; omega), hearTick_byte _ _ _ _ _ _ (by omega), if_pos (by omega),
    hearAnswer_tick _ _ _ _ rfl (by dsimp only; omega)]
  rfl

theorem middles_append (n : Nat) (line more : List Level) (inside : 4 * n ≤ line.length) :
    middles n (line ++ more) = middles n line :=
  List.map_congr_left fun j mem => getD_append_of_lt (by
    have := List.mem_range.mp mem
    omega)

theorem middles_last (n : Nat) (line : List Level) :
    middles (n + 1) line = middles n line ++ [line.getD (4 * n + 2) .high] := by
  simp [middles, List.range_succ]

/-- A whole byte of 40 ticks. -/
theorem hearAnswer_ticks (limit : Nat) (line rest : List Level) (length : line.length = 40) (hn : 40 ≤ limit) :
    ∃ d : Level, hearAnswer limit (line ++ rest) .start =
      hearAnswer limit rest
        { now := 40, listening := if d = .high then .idle 0 0 else .held, bytes := [sampledByte (middles 10 line)],
          lastEnd := 40 } := by
  have first : (line.take 36).length = 4 * 9 := by simp [length]
  have parts : line.take 36 ++ line.drop 36 = line := List.take_append_drop 36 line
  have last : (line.drop 36).length = 4 := by simp [length]
  match stop : line.drop 36, last with
  | [a, b, c, d], _ =>
    rw [stop] at parts
    have samples : middles 9 (line.take 36) ++ [c] = middles 10 line := by
      rw [middles_last 9 line, ← parts, middles_append 9 (line.take 36) _ (Nat.le_of_eq first.symm),
        getD_append_of_le (by simp [length])]
      simp [length]
    refine ⟨d, ?_⟩
    have bits := hearAnswer_bits limit ([a, b, c, d] ++ rest) [] 0 9 (line.take 36) 0 0 [] first (by omega) (by omega)
    rw [← List.append_assoc, parts] at bits
    refine bits.trans ((hearAnswer_stopTicks limit a b c d rest _ _ [] 0 (by omega)).trans ?_)
    rw [List.nil_append, List.nil_append, samples]

/-- The bits of a byte are the levels sampled between the first and the last. -/
theorem sampledBits_getLsbD (levels : List Level) (small : levels.length ≤ 8) (k : Nat) (inside : k < levels.length) :
    (levels.foldr (fun l (b : Byte) => (b <<< 1) ||| (if l = .high then 1 else 0)) 0).getLsbD k =
      decide (levels.getD k .high = .high) := by
  induction levels generalizing k with
  | nil => exact absurd inside (Nat.not_lt_zero k)
  | cons l rest ih =>
    simp only [List.length_cons] at small inside
    cases k with
    | zero => cases l <;> simp
    | succ k =>
      have before := ih (by omega) k (by omega)
      have below : k + 1 < 8 := by omega
      rw [List.foldr_cons, BitVec.getLsbD_or, BitVec.getLsbD_shiftLeft, List.getD_cons_succ, ← before]
      cases l <;> simp [below]

/-- A byte by its samples: bit `k` is sampled at tick 4k + 6, the stop bit at tick 38 (R49). -/
theorem sampledByte_middles (line : List Level) :
    (sampledByte (middles 10 line)).2 = decide (line.getD 38 .high = .low)
      ∧ ∀ k, k < 8 → (sampledByte (middles 10 line)).1.getLsbD k = decide (line.getD (4 * k + 6) .high = .high) := by
  refine ⟨by simp [sampledByte, middles, List.range_succ, Bool.beq_eq_decide_eq], fun k small => ?_⟩
  have data : ((middles 10 line).drop 1).take 8 = (List.range 8).map fun j => line.getD (4 * j + 6) .high := by
    simp [middles, List.range_succ]
  have bits := sampledBits_getLsbD ((List.range 8).map fun j => line.getD (4 * j + 6) .high) (by simp) k (by simpa using small)
  rw [← data] at bits
  refine bits.trans ?_
  rw [data, getD_eq_of_lt (by simpa using small), List.getElem_map, List.getElem_range]

/-- Idle ticks until the idle end or the limit: the answer ends with its last stop bit. -/
theorem hearAnswer_idles (limit n t : Nat) (rest : List Level) (now : Nat) (bytes : List (Byte × Bool)) (e : Nat)
    (long : 8 ≤ t + n) :
    hearAnswer limit (List.replicate n .high ++ rest)
        { now := now, listening := .idle t 0, bytes := bytes, lastEnd := e } =
      { bytes := bytes, overran := false, endAt := e } := by
  induction n generalizing t now with
  | zero => exact hearAnswer_idleEnd limit t 0 _ now bytes e long
  | succ n ih =>
    rcases Nat.lt_or_ge t 8 with short | ended
    · rw [List.replicate_succ, List.cons_append]
      rcases Nat.lt_or_ge now limit with before | atLimit
      · rw [hearAnswer_tick _ _ _ _ (idleEnded_idle _ _ _ _ _ short) before]
        exact ih (t + 1) (now + 1) (by omega)
      · rw [hearAnswer_limit _ _ _ _ (idleEnded_idle _ _ _ _ _ short) atLimit]
        rfl
    · exact hearAnswer_idleEnd limit t 0 _ now bytes e ended

/-- A low that began after a stop bit goes on, and the line then idles for 2 bit-times. -/
theorem hearAnswer_heldIdles (limit : Nat) (rest : List Level) (now : Nat) (bytes : List (Byte × Bool)) (e : Nat) :
    hearAnswer limit (List.replicate 8 .high ++ rest)
        { now := now, listening := .held, bytes := bytes, lastEnd := e } =
      { bytes := bytes, overran := false, endAt := e } := by
  rcases Nat.lt_or_ge now limit with before | atLimit
  · exact (hearAnswer_released limit (List.replicate 7 .high ++ rest) now bytes e before).trans
      (hearAnswer_idles limit 7 1 rest (now + 1) bytes e (by omega))
  · exact hearAnswer_limit limit .high (List.replicate 7 .high ++ rest)
      { now := now, listening := .held, bytes := bytes, lastEnd := e } rfl atLimit

theorem characterLine_low (b : Byte) (f : Bool) :
    characterLine b f = .low :: .low :: .low :: (characterLine b f).drop 3 := rfl

theorem characterLine_length (b : Byte) (f : Bool) : (characterLine b f).length = 40 := rfl

/-- A byte that begins by the limit and cannot end by it (R58). -/
theorem hearAnswer_lateByte (limit t : Nat) (b : Byte) (f : Bool) (rest : List Level) (now : Nat)
    (bytes : List (Byte × Bool)) (e : Nat) (ht : t < 8) (begins : now ≤ limit) (late : limit < now + 40) :
    hearAnswer limit (characterLine b f ++ rest)
        { now := now, listening := .idle t 0, bytes := bytes, lastEnd := e } =
      { bytes := bytes, overran := true, endAt := limit } := by
  have overrun : ∀ (k : Nat) (line : List Level), now + k = limit →
      hearAnswer limit (.low :: line) { now := now + k, listening := .idle t k, bytes := bytes, lastEnd := e } =
        { bytes := bytes, overran := true, endAt := limit } := fun k line atLimit =>
    (hearAnswer_limit _ _ _ _ (idleEnded_idle _ _ _ _ _ ht) (Nat.le_of_eq atLimit.symm)).trans (if_pos (.inl rfl))
  have low : ∀ (k : Nat) (line : List Level), k < 2 → now + k < limit →
      hearAnswer limit (.low :: line) { now := now + k, listening := .idle t k, bytes := bytes, lastEnd := e } =
        hearAnswer limit line { now := now + (k + 1), listening := .idle t (k + 1), bytes := bytes, lastEnd := e } :=
    fun k line few before => by
      rw [hearAnswer_tick _ _ _ _ (idleEnded_idle _ _ _ _ _ ht) before, hearTick_low _ _ _ _ _ few]
      rfl
  rw [characterLine_low, List.cons_append, List.cons_append, List.cons_append]
  rcases Nat.lt_or_ge limit (now + 3) with early | later
  · rcases (by omega : now + 0 = limit ∨ now + 1 = limit ∨ now + 2 = limit) with first | second | third
    · exact overrun 0 _ first
    · exact (low 0 _ (by omega) (by omega)).trans (overrun 1 _ second)
    · exact (low 0 _ (by omega) (by omega)).trans ((low 1 _ (by omega) (by omega)).trans (overrun 2 _ third))
  · refine (hearAnswer_startBit limit t _ now bytes e ht later).trans ?_
    refine hearAnswer_overrun limit _ (now + 3) 3 [.low] bytes e (by omega) (by omega) ?_ later
    rw [List.length_append, List.length_drop, characterLine_length]
    omega

/-- A low that began after a stop bit goes on, and the line then idles for less than 2 bit-times. -/
theorem hearAnswer_heldIdle (limit m : Nat) (rest : List Level) (now : Nat) (bytes : List (Byte × Bool)) (e : Nat)
    (some : 1 ≤ m) (few : m ≤ 8) (before : now + m ≤ limit) :
    hearAnswer limit (List.replicate m .high ++ rest)
        { now := now, listening := .held, bytes := bytes, lastEnd := e } =
      hearAnswer limit rest { now := now + m, listening := .idle m 0, bytes := bytes, lastEnd := e } := by
  obtain ⟨m, rfl⟩ := Nat.exists_eq_add_of_le some
  rw [← List.replicate_append_replicate, List.append_assoc]
  refine (hearAnswer_released limit (List.replicate m .high ++ rest) now bytes e (by omega)).trans ?_
  rw [hearAnswer_idle limit m 1 rest (now + 1) bytes e few (by omega), Nat.add_assoc]

/-- A low that goes on to the limit (R58). -/
theorem hearAnswer_heldToLimit (limit n : Nat) (rest : List Level) (now : Nat) (bytes : List (Byte × Bool)) (e : Nat)
    (begins : now ≤ limit) (late : limit < now + n) :
    hearAnswer limit (List.replicate n .low ++ rest)
        { now := now, listening := .held, bytes := bytes, lastEnd := e } =
      { bytes := bytes, overran := true, endAt := limit } := by
  have split : List.replicate n Level.low ++ rest =
      List.replicate (limit - now) .low ++ (.low :: (List.replicate (n - (limit - now) - 1) .low ++ rest)) := by
    have count : n = (limit - now) + (1 + (n - (limit - now) - 1)) := by omega
    conv =>
      lhs
      rw [count, ← List.replicate_append_replicate, ← List.replicate_append_replicate, List.append_assoc,
        List.append_assoc]
    rfl
  have time : now + (limit - now) = limit := Nat.add_sub_of_le begins
  rw [split, hearAnswer_held limit _ _ now bytes e (Nat.le_of_eq time), time]
  exact (hearAnswer_limit limit .low _ { now := limit, listening := .held, bytes := bytes, lastEnd := e } rfl
    (Nat.le_refl limit)).trans (if_pos (.inl rfl))

end Sys2Proof.Machine

namespace Sys2Proof.Machine

/-! ### Whole answers (R57 to R61) -/

/-- The line of some bytes after the first, each after an idle. -/
def furtherBytes (more : List (Nat × Byte)) : List Level :=
  more.flatMap fun x => List.replicate x.1 .high ++ characterLine x.2 false

/-- Their bytes as the receiver has them. -/
def furtherGot (more : List (Nat × Byte)) : List (Byte × Bool) := more.map fun x => (x.2, false)

/-- Their time in ticks. -/
def furtherTime (more : List (Nat × Byte)) : Nat := (more.map fun x => x.1 + 40).sum

theorem hearAnswer_further (limit : Nat) (more : List (Nat × Byte)) (rest : List Level) (now : Nat)
    (bytes : List (Byte × Bool)) (short : ∀ x ∈ more, x.1 < 8) (inTime : now + furtherTime more ≤ limit) :
    hearAnswer limit (furtherBytes more ++ rest)
        { now := now, listening := .idle 0 0, bytes := bytes, lastEnd := now } =
      hearAnswer limit rest
        { now := now + furtherTime more, listening := .idle 0 0, bytes := bytes ++ furtherGot more,
          lastEnd := now + furtherTime more } := by
  induction more generalizing now bytes with
  | nil => simp [furtherBytes, furtherGot, furtherTime]
  | cons x more ih =>
    have time : furtherTime (x :: more) = x.1 + 40 + furtherTime more := by simp [furtherTime]
    have line : furtherBytes (x :: more) ++ rest =
        List.replicate x.1 .high ++ (characterLine x.2 false ++ (furtherBytes more ++ rest)) := by simp [furtherBytes]
    have idle := short x List.mem_cons_self
    rw [time] at inTime ⊢
    rw [line, hearAnswer_idle limit x.1 0 _ now bytes now (by omega) (by omega),
      hearAnswer_nextByte limit _ x.2 false _ _ bytes now (by omega) (by omega)]
    refine (ih (now + x.1 + 40) (bytes ++ [(x.2, false)]) (fun y mem => short y (List.mem_cons_of_mem x mem))
      (by omega)).trans ?_
    have ends : now + x.1 + 40 + furtherTime more = now + (x.1 + 40 + furtherTime more) := by omega
    rw [ends, List.append_assoc]
    rfl

/-- An answer whose bytes end in time, up to the end of its last stop bit. -/
theorem takeAnswer_sent {i : Nat} {first : Byte} {more : List (Nat × Byte)} {total : Nat}
    (short : ∀ x ∈ more, x.1 < 8) (time : total = 40 + furtherTime more) (inTime : total ≤ 4 * answerLimit i)
    (rest : List Level) :
    takeAnswer i (characterLine first false ++ furtherBytes more ++ rest) =
      hearAnswer (4 * answerLimit i) (rest ++ List.replicate (4 * answerLimit i + 1) .high)
        { now := total, listening := .idle 0 0, bytes := (first, false) :: furtherGot more, lastEnd := total } := by
  rw [takeAnswer_eq, List.append_assoc, List.append_assoc]
  subst time
  exact (hearAnswer_byte _ first false _ 0 [] 0 (by omega)).trans
    (hearAnswer_further _ more _ 40 [(first, false)] short inTime)

/-- ANSWER_END (R58, R61). -/
theorem exec_answerEnd {c : Capture} {s : State} (line : List Level) (answer : s.btx.state = .answer)
    (capture : s.btx.capture = some c) :
    let t := takeAnswer c.inCount (s.btx.heard ++ line)
    exec (.answerEnd line) s = .next (handService c.drop (judgeAnswer c t)
      ((s.setFen { s.fen with timer := s.fen.timer.map (· + t.endAt) }).setBtx
        { btxHear s.busRate t.endAt (s.btx.heard ++ line) s.btx with
          state := .gap (.attempt (judgeAnswer c t)),
          rx := { s.btx.rx with bytes := t.bytes.map Prod.fst, endAt := some t.endAt } })) := by
  intro t
  have rate : s.busRate = s.fen.config.rate := by simp only [State.busRate, answer]
  have takes : exec (.answerEnd line) s = .next (handService c.drop (judgeAnswer c t) (hear t.endAt line
      (s.setBtx { s.btx with
        state := .gap (.attempt (judgeAnswer c t)),
        rx := { s.btx.rx with bytes := t.bytes.map Prod.fst, endAt := some t.endAt } }))) := by
    show execAnswerEnd line s = _
    unfold execAnswerEnd
    split
    · rename_i c' _ capture'
      obtain rfl := Option.some.inj (capture'.symm.trans capture)
      rfl
    · rename_i others
      exact absurd capture (others c answer)
  rw [takes, hear_eq, rate]
  rfl

theorem busValues_flatMap (values : List Word) : busValues (values.flatMap busWord) = values := by
  induction values with
  | nil => simp [busValues]
  | cons v rest ih =>
    rw [List.flatMap_cons, busWord, List.cons_append, List.cons_append, List.nil_append, busValues, ih, wordFrom_linkWord]

/-- The judgement of a conforming answer, whole and in time (R57, R59, R60). -/
theorem judgeAnswer_answerFrame {c : Capture} {values : List Word} (addr st : Byte) (count : values.length = c.inCount)
    (few : values.length ≤ 16) (n : Nat) :
    judgeAnswer c { bytes := (answerFrame addr st values).map fun b => (b, false), overran := false, endAt := n } =
      if addr = dropByte c.drop then .valid (st.getLsbD 0) (st.getLsbD 1) values else .error .wrongDrop := by
  let covered : List Byte := addr :: st :: byteOf values.length :: values.flatMap busWord
  have length : covered.length = 3 + 2 * values.length := by
    simp only [covered, List.length_cons, flatMap_busWord_length]
    omega
  have bytes : ((answerFrame addr st values).map fun b => (b, false)).map Prod.fst =
      covered ++ [highByte (busCheck covered), lowByte (busCheck covered)] := by
    rw [List.map_map]
    exact List.map_id _
  have whole : (covered ++ [highByte (busCheck covered), lowByte (busCheck covered)]).length = 5 + 2 * values.length := by
    rw [List.length_append, length]
    simp only [List.length_cons, List.length_nil]
    omega
  have at_n : 5 + 2 * values.length - 2 = covered.length := by omega
  have high : (covered ++ [highByte (busCheck covered), lowByte (busCheck covered)]).getD covered.length 0 =
      highByte (busCheck covered) := by
    rw [getD_append_of_le (Nat.le_refl _), Nat.sub_self]
    rfl
  have low : (covered ++ [highByte (busCheck covered), lowByte (busCheck covered)]).getD (covered.length + 1) 0 =
      lowByte (busCheck covered) := by
    rw [getD_append_of_le (Nat.le_succ _), Nat.succ_sub (Nat.le_refl _), Nat.sub_self]
    rfl
  have nin : (byteOf values.length).toNat = values.length := by
    rw [byteOf, BitVec.toNat_ofNat]
    exact Nat.mod_eq_of_lt (by omega)
  refine (judgeAnswer_of_clean rfl ?_ fun x mem => ?_).trans ?_
  · rw [← List.length_map Prod.fst, bytes, whole]
    exact Nat.le_add_right 5 _
  · obtain ⟨b, -, rfl⟩ := List.mem_map.mp mem
    rfl
  · dsimp only
    rw [bytes, whole, at_n, List.take_left, high, low, wordFrom_linkWord, if_neg (Classical.not_not.mpr rfl)]
    show (if addr ≠ dropByte c.drop then AttemptResult.error .wrongDrop
      else if 5 + 2 * values.length ≠ 5 + 2 * (byteOf values.length).toNat then .error .badLength
      else if (byteOf values.length).toNat ≠ c.inCount then .error .badLength
      else .valid (st.getLsbD 0) (st.getLsbD 1) (busValues (values.flatMap busWord))) = _
    rw [nin, busValues_flatMap, if_neg (Classical.not_not.mpr rfl), if_neg (Classical.not_not.mpr count)]
    by_cases same : addr = dropByte c.drop
    · rw [if_pos same, if_neg (Classical.not_not.mpr same)]
    · rw [if_neg same, if_pos same]

/-- A conforming answer in time is taken whole, and ends at the limit (R57, R58). -/
theorem takeAnswer_answerFrame {i : Nat} {values : List Word} (addr st : Byte) (count : values.length = i)
    {seen : List Level}
    (heard : seen = frameLine (answerFrame addr st values)
      ∨ ∃ rest, seen = frameLine (answerFrame addr st values) ++ .high :: rest) :
    takeAnswer i seen =
      { bytes := (answerFrame addr st values).map fun b => (b, false), overran := false, endAt := 4 * answerLimit i } := by
  let tail : List Byte := st :: byteOf values.length :: values.flatMap busWord
    ++ busWord (busCheck (addr :: st :: byteOf values.length :: values.flatMap busWord))
  let more : List (Nat × Byte) := tail.map fun b => (0, b)
  have bytes : answerFrame addr st values = addr :: tail := rfl
  have length : tail.length = 4 + 2 * values.length := by
    simp only [tail, List.length_append, List.length_cons, flatMap_busWord_length, busWord, List.length_nil]
    omega
  have line : frameLine (answerFrame addr st values) = characterLine addr false ++ furtherBytes more := by
    rw [bytes]
    simp [frameLine, furtherBytes, more, List.flatMap_map]
  have got : (addr, false) :: furtherGot more = (answerFrame addr st values).map fun b => (b, false) := by
    rw [bytes]
    simp [furtherGot, more]
  have time : 4 * answerLimit i = 40 + furtherTime more := by
    have sum : furtherTime more = 40 * tail.length := by
      simp only [furtherTime, more, List.map_map, Function.comp_def, Nat.zero_add, List.map_const', List.sum_replicate_nat]
      exact Nat.mul_comm _ _
    rw [sum, length, answerLimit, count]
    omega
  have short : ∀ x ∈ more, x.1 < 8 := fun x mem => by
    obtain ⟨b, -, rfl⟩ := List.mem_map.mp mem
    exact Nat.zero_lt_succ 7
  have ends : ∀ rest, hearAnswer (4 * answerLimit i) (.high :: rest)
      { now := 4 * answerLimit i, listening := .idle 0 0, bytes := (addr, false) :: furtherGot more,
        lastEnd := 4 * answerLimit i } =
      { bytes := (answerFrame addr st values).map fun b => (b, false), overran := false, endAt := 4 * answerLimit i } := by
    intro rest
    rw [← got]
    exact hearAnswer_limit (4 * answerLimit i) .high rest
      { now := 4 * answerLimit i, listening := .idle 0 0, bytes := (addr, false) :: furtherGot more,
        lastEnd := 4 * answerLimit i } rfl (Nat.le_refl _)
  rcases heard with rfl | ⟨rest, rfl⟩
  · have taken := takeAnswer_sent (i := i) (first := addr) short time (Nat.le_refl _) []
    rw [List.append_nil, ← line] at taken
    exact taken.trans (ends _)
  · have taken := takeAnswer_sent (i := i) (first := addr) short time (Nat.le_refl _) (.high :: rest)
    rw [← line] at taken
    exact taken.trans (ends _)

end Sys2Proof.Machine

namespace Sys2Proof.Machine

/-! ### How an answer ends (R58) -/

/-- An answer of bytes that end in time, and what the receiver meets after them: `sent` as R58 has it. -/
theorem answer_ends {i : Nat} {first : Byte} {more : List (Nat × Byte)} {total : Nat}
    (short : ∀ x ∈ more, x.1 < 8) (time : total = 40 + furtherTime more) (inTime : total ≤ 4 * answerLimit i) :
    let limit := 4 * answerLimit i
    let idle := fun n : Nat => List.replicate n Level.high
    let sent := characterLine first false ++ furtherBytes more
    let got := (first, false) :: furtherGot more
    (∀ rest, takeAnswer i (sent ++ idle 8 ++ rest) = { bytes := got, overran := false, endAt := total })
    ∧ (∀ (n : Nat) (b : Byte) (framing : Bool) (rest : List Level),
        n < 8 → total + n ≤ limit → limit < total + n + 40 →
        takeAnswer i (sent ++ idle n ++ characterLine b framing ++ rest)
          = { bytes := got, overran := true, endAt := limit })
    ∧ (∀ (n k : Nat) (b : Byte) (rest : List Level),
        n < 8 → total + n + 40 ≤ limit → limit < total + n + 40 + k →
        takeAnswer i (sent ++ idle n ++ characterLine b true ++ List.replicate k .low ++ rest)
          = { bytes := got ++ [(b, true)], overran := true, endAt := limit })
    ∧ (∀ (n k m : Nat) (b b' : Byte) (rest : List Level),
        n < 8 → 1 ≤ m → m < 8 → total + n + 40 + k + m + 40 ≤ limit →
        takeAnswer i (sent ++ idle n ++ characterLine b true ++ List.replicate k .low ++ idle m
            ++ characterLine b' false ++ idle 8 ++ rest)
          = { bytes := got ++ [(b, true), (b', false)], overran := false, endAt := total + n + 40 + k + m + 40 })
    ∧ (∀ (n k : Nat) (b : Byte) (rest : List Level), n < 8 → total + n + 40 + k + 8 ≤ limit →
        takeAnswer i (sent ++ idle n ++ characterLine b true ++ List.replicate k .low ++ idle 8 ++ rest)
          = { bytes := got ++ [(b, true)], overran := false, endAt := total + n + 40 })
    ∧ (∀ (n k : Nat) (rest : List Level), n < 8 → k ≤ 2 → total + n + k + 1 ≤ limit →
        takeAnswer i (sent ++ idle n ++ List.replicate k .low ++ idle 1 ++ rest)
          = takeAnswer i (sent ++ idle (n + k + 1) ++ rest)) := by
  intro limit idle sent got
  have taken : ∀ rest, takeAnswer i (sent ++ rest) = hearAnswer limit (rest ++ List.replicate (limit + 1) .high)
      { now := total, listening := .idle 0 0, bytes := got, lastEnd := total } := takeAnswer_sent short time inTime
  have idles : ∀ n rest, n ≤ 8 → total + n ≤ limit →
      hearAnswer limit (idle n ++ rest) { now := total, listening := .idle 0 0, bytes := got, lastEnd := total } =
        hearAnswer limit rest { now := total + n, listening := .idle n 0, bytes := got, lastEnd := total } := by
    intro n rest few before
    have heard := hearAnswer_idle limit n 0 rest total got total (by omega) before
    rwa [Nat.zero_add] at heard
  have framed : ∀ n b rest, n < 8 → total + n + 40 ≤ limit →
      hearAnswer limit (idle n ++ (characterLine b true ++ rest))
          { now := total, listening := .idle 0 0, bytes := got, lastEnd := total } =
        hearAnswer limit rest
          { now := total + n + 40, listening := .held, bytes := got ++ [(b, true)], lastEnd := total + n + 40 } :=
    fun n b rest few before =>
      (idles n _ (Nat.le_of_lt few) (by omega)).trans (hearAnswer_nextByte limit n b true rest _ got total few before)
  refine ⟨fun rest => ?_, fun n b framing rest few before late => ?_, fun n k b rest few before late => ?_,
    fun n k m b b' rest few one less before => ?_, fun n k b rest few before => ?_, fun n k rest few glitch before => ?_⟩
  · rw [List.append_assoc, taken, List.append_assoc]
    exact hearAnswer_idles limit 8 0 _ total got total (Nat.le_refl 8)
  · simp only [List.append_assoc, taken]
    rw [idles n _ (Nat.le_of_lt few) before]
    exact hearAnswer_lateByte limit n b framing _ _ got total few before late
  · simp only [List.append_assoc, taken]
    rw [framed n b _ few before]
    exact hearAnswer_heldToLimit limit k _ _ _ _ before late
  · simp only [List.append_assoc, taken]
    rw [framed n b _ few (by omega), hearAnswer_held limit k _ _ _ _ (by omega),
      hearAnswer_heldIdle limit m _ _ _ _ one (Nat.le_of_lt less) (by omega),
      hearAnswer_nextByte limit m b' false _ _ _ _ less (by omega)]
    refine (hearAnswer_idles limit 8 0 _ _ _ _ (Nat.le_refl 8)).trans ?_
    rw [List.append_assoc]
    rfl
  · simp only [List.append_assoc, taken]
    rw [framed n b _ few (by omega), hearAnswer_held limit k _ _ _ _ (by omega)]
    exact hearAnswer_heldIdles limit _ _ _ _
  · simp only [List.append_assoc, taken]
    rw [idles n _ (Nat.le_of_lt few) (by omega)]
    have glitched := hearAnswer_glitch limit k n (rest ++ List.replicate (limit + 1) .high) (total + n) got total glitch few
      (by omega)
    refine glitched.trans ?_
    rcases Nat.lt_or_ge 8 (n + k + 1) with many | fits
    · rw [hearAnswer_idleEnd limit _ 0 _ _ _ _ (Nat.le_of_lt many)]
      exact (hearAnswer_idles limit (n + k + 1) 0 _ total got total (by omega)).symm
    · have moment : total + (n + k + 1) = total + n + k + 1 := by omega
      rw [idles (n + k + 1) _ fits (by omega), moment]

/-- Any 40 ticks from the start on are a byte, which the idle after them ends (R49, R58). -/
theorem takeAnswer_ticks (i : Nat) (l rest : List Level) (length : l.length = 40) :
    takeAnswer i (l ++ List.replicate 8 .high ++ rest) =
      { bytes := [sampledByte (middles 10 l)], overran := false, endAt := 40 } := by
  have limit : 40 ≤ 4 * answerLimit i := by
    simp only [answerLimit]
    omega
  rw [takeAnswer_eq, List.append_assoc, List.append_assoc]
  obtain ⟨d, heard⟩ := hearAnswer_ticks (4 * answerLimit i) l
    (List.replicate 8 .high ++ (rest ++ List.replicate (4 * answerLimit i + 1) .high)) length limit
  rw [heard]
  cases d with
  | high => exact hearAnswer_idles _ 8 0 _ 40 _ 40 (Nat.le_refl 8)
  | low => exact hearAnswer_heldIdles _ _ 40 _ 40

/-- Settles O43: the end of an answer by what the receiver hears, then the judgement of a conforming one. -/
theorem answerIsJudged : Obligations.AnswerIsJudged := by
  intro c line s answer capture limit seen t idle after
  have ends := exec_answerEnd line answer capture
  refine ⟨⟨takeAnswer_endAt c.inCount seen, ends⟩, fun l rest length => ?_, fun first more total short time inTime => ?_,
    fun addr st values count few => ?_⟩
  · obtain ⟨stop, bits⟩ := sampledByte_middles l
    exact ⟨_, _, takeAnswer_ticks c.inCount l rest length, stop, bits⟩
  · exact answer_ends short time inTime
  · intro bytes heard
    have taken := takeAnswer_answerFrame addr st count heard
    have judged := judgeAnswer_answerFrame (c := c) addr st count few (4 * answerLimit c.inCount)
    have names : ((answerFrame addr st values).map fun b => (b, false)).map Prod.fst = bytes := by
      rw [List.map_map]
      exact List.map_id _
    dsimp only at ends
    rw [taken, judged] at ends
    dsimp only at ends
    rw [names] at ends
    refine ⟨fun ours => ?_, fun other => ?_⟩
    · rw [if_pos ours] at ends
      exact ends
    · rw [if_neg other] at ends
      exact ends

end Sys2Proof.Machine
